-- ==== Sys2Proof/Word.lean ====
section
/-! DEFINITION. The value types of the block: bytes, 16-bit words and 12-bit address immediates
(00_scope.md R8, R13). Every value is unsigned; nothing is sign-extended. -/

namespace Sys2Proof

/-- An 8-bit value: a general register, a memory cell, the delay timer (00_scope.md R13). -/
abbrev Byte := BitVec 8

/-- A 16-bit value: an instruction word, the pc, the index register, a stack entry (00_scope.md R13). -/
abbrev Word := BitVec 16

/-- The 12-bit address immediate NNN (00_scope.md R10). -/
abbrev Addr12 := BitVec 12

/-- `zext_16` of 00_scope.md R8 on a 12-bit immediate. -/
def zext16 (a : Addr12) : Word := a.setWidth 16

end Sys2Proof
end

