-- ==== Sys2Proof/Config.lean ====
section
/-! DEFINITION. What is fixed when the block is constructed (00_scope.md R7, 10_state.md R32, R41), the default
FONT, and the free values that the spec leaves OPEN. -/

namespace Sys2Proof

/-- The construction-time configuration: the three quirks of 10_state.md R32 and the parameters of 00_scope.md R7.
It is held in `State` and no step changes it (70_reset_and_hazards.md R249). The three periods are the OPEN parameters
PERIOD_CPU, PERIOD_TIMER and PERIOD_REFRESH of 60_exceptions.md R221 in units of the host's clock (log 4). -/
structure Config where
  shiftLoadsY : Bool
  indexOverflowFlag : Bool
  storeLoadIncrementsIndex : Bool
  haltOnSelfJump : Bool
  fontProtect : Bool
  stackCap : Option Nat
  cpuHz : Nat
  periodCpu : Nat
  periodTimer : Nat
  periodRefresh : Nat
  deriving DecidableEq, Repr

namespace Config

/-- TIMER_HZ of 00_scope.md R7. -/
def timerHz : Nat := 60

/-- REFRESH_HZ of 00_scope.md R7. -/
def refreshHz : Nat := 60

/-- Clock units in one second of the nominal periods: thirds of a millisecond, the coarsest unit in which 1000/60 ms is
whole. DESIGN CHOICE (log 4). -/
def unitsPerSecond : Nat := 3000

/-- The nominal period of a rate, "nominal 1000 / CPU_HZ ms" (60_exceptions.md R221), in clock units (log 4). -/
def nominalPeriod (hz : Nat) : Nat := unitsPerSecond / hz

/-- The defaults of 00_scope.md R7 and 10_state.md R32, with the nominal periods of 60_exceptions.md R221 (log 4, log 8). -/
def standard : Config where
  shiftLoadsY := false
  indexOverflowFlag := true
  storeLoadIncrementsIndex := false
  haltOnSelfJump := true
  fontProtect := false
  stackCap := none
  cpuHz := 500
  periodCpu := nominalPeriod 500
  periodTimer := nominalPeriod timerHz
  periodRefresh := nominalPeriod refreshHz

/-- The default FONT of 20_memory.md R56, five bytes a glyph, glyph 0 first.
PRESUMED by the spec from general knowledge (93_implementation_defined.md G1, log 9). -/
def defaultFont : List Byte :=
  [0xF0#8, 0x90#8, 0x90#8, 0x90#8, 0xF0#8] ++ [0x20#8, 0x60#8, 0x20#8, 0x20#8, 0x70#8] ++
  [0xF0#8, 0x10#8, 0xF0#8, 0x80#8, 0xF0#8] ++ [0xF0#8, 0x10#8, 0xF0#8, 0x10#8, 0xF0#8] ++
  [0x90#8, 0x90#8, 0xF0#8, 0x10#8, 0x10#8] ++ [0xF0#8, 0x80#8, 0xF0#8, 0x10#8, 0xF0#8] ++
  [0xF0#8, 0x80#8, 0xF0#8, 0x90#8, 0xF0#8] ++ [0xF0#8, 0x10#8, 0x20#8, 0x40#8, 0x40#8] ++
  [0xF0#8, 0x90#8, 0xF0#8, 0x90#8, 0xF0#8] ++ [0xF0#8, 0x90#8, 0xF0#8, 0x10#8, 0xF0#8] ++
  [0xF0#8, 0x90#8, 0xF0#8, 0x90#8, 0x90#8] ++ [0xE0#8, 0x90#8, 0xE0#8, 0x90#8, 0xE0#8] ++
  [0xF0#8, 0x80#8, 0x80#8, 0x80#8, 0xF0#8] ++ [0xE0#8, 0x90#8, 0x90#8, 0x90#8, 0xE0#8] ++
  [0xF0#8, 0x80#8, 0xF0#8, 0x80#8, 0xF0#8] ++ [0xF0#8, 0x80#8, 0xF0#8, 0x80#8, 0x80#8]

/-- GLYPH_OOR (00_scope.md R7, 43_index_memory.md R172, 92_eei_decisions.md D14): the value FX29 stores in I for a digit
above 0xF. OPEN, so a constant without a body: nothing can be proved of its values (log 1). -/
opaque glyphOor : Byte → Word

/-- The random source beyond the bytes a harness injects (60_exceptions.md R226, 92_eei_decisions.md D23): the byte the
host's generator gives at a draw, from its seed and the number of bytes drawn before. OPEN, so without a body (log 2). -/
opaque randomByte : Nat → Nat → Byte

end Config

end Sys2Proof
end

