-- ==== Sys2Proof/Syntax.lean ====
section
/-! DEFINITION. The instructions: one constructor per row of spec/opcode_table.json (30_encoding.md R81), named
`op` and the row's pattern, which is the only normative name (30_encoding.md R89).
Register indices and the row count are natural numbers, checked by `Instr.wf` and, at the access, by the guard of
10_state.md R22 (log 7); bytes and addresses are bit vectors of their width (30_encoding.md R82). -/

namespace Sys2Proof

/-- The 29 instructions of 30_encoding.md R81. -/
inductive Instr where
  /-- 00E0: clear the framebuffer (R104). -/
  | op00E0
  /-- 00EE: return from subroutine (R120). -/
  | op00EE
  /-- 1NNN: jump (R121). -/
  | op1NNN (nnn : Addr12)
  /-- 2NNN: call subroutine (R123). -/
  | op2NNN (nnn : Addr12)
  /-- 3XNN: skip if V[X] = NN (R124). -/
  | op3XNN (x : Nat) (nn : Byte)
  /-- 4XNN: skip if V[X] differs from NN (R125). -/
  | op4XNN (x : Nat) (nn : Byte)
  /-- 5XY0: skip if V[X] = V[Y] (R126). -/
  | op5XY0 (x : Nat) (y : Nat)
  /-- 6XNN: load immediate (R141). -/
  | op6XNN (x : Nat) (nn : Byte)
  /-- 7XNN: add immediate, no flag (R142). -/
  | op7XNN (x : Nat) (nn : Byte)
  /-- 8XY0: move (R143). -/
  | op8XY0 (x : Nat) (y : Nat)
  /-- 8XY1: bitwise OR (R144). -/
  | op8XY1 (x : Nat) (y : Nat)
  /-- 8XY2: bitwise AND (R145). -/
  | op8XY2 (x : Nat) (y : Nat)
  /-- 8XY3: bitwise XOR (R146). -/
  | op8XY3 (x : Nat) (y : Nat)
  /-- 8XY4: add with carry into VF (R147). -/
  | op8XY4 (x : Nat) (y : Nat)
  /-- 8XY5: subtract V[Y] from V[X], no-borrow into VF (R148). -/
  | op8XY5 (x : Nat) (y : Nat)
  /-- 8XY6: shift right by one, bit 0 into VF (R149). -/
  | op8XY6 (x : Nat) (y : Nat)
  /-- 8XY7: reverse subtract, no-borrow into VF (R150). -/
  | op8XY7 (x : Nat) (y : Nat)
  /-- 8XYE: shift left by one, bit 7 into VF (R151). -/
  | op8XYE (x : Nat) (y : Nat)
  /-- 9XY0: skip if V[X] differs from V[Y] (R127). -/
  | op9XY0 (x : Nat) (y : Nat)
  /-- ANNN: load index (R170). -/
  | opANNN (nnn : Addr12)
  /-- CXNN: random byte masked by NN (R155). -/
  | opCXNN (x : Nat) (nn : Byte)
  /-- DXYN: draw an N-row sprite, collision into VF (R105). -/
  | opDXYN (x : Nat) (y : Nat) (n : Nat)
  /-- FX07: read the delay timer (R190). -/
  | opFX07 (x : Nat)
  /-- FX15: set the delay timer (R191). -/
  | opFX15 (x : Nat)
  /-- FX1E: add V[X] to the index register (R171). -/
  | opFX1E (x : Nat)
  /-- FX29: point the index register at the glyph of digit V[X] (R172). -/
  | opFX29 (x : Nat)
  /-- FX33: store the decimal digits of V[X] (R173). -/
  | opFX33 (x : Nat)
  /-- FX55: store V[0] to V[X] from I onwards (R174). -/
  | opFX55 (x : Nat)
  /-- FX65: load V[0] to V[X] from I onwards (R175). -/
  | opFX65 (x : Nat)
  deriving DecidableEq, Repr

end Sys2Proof
end

