-- ==== Sys2Proof/WellFormed.lean ====
section
/-! DEFINITION. Well-formed instructions: the fields fit their widths (30_encoding.md R82: `X` and `Y` are 0..15, `N` is
an unsigned count 0..15). Bytes and addresses fit by their types. -/

namespace Sys2Proof

/-- A register index is "in 0–15" (10_state.md R22). -/
def regOk (r : Nat) : Bool := decide (r < 16)

/-- A row count is 0..15 (30_encoding.md R82). -/
def countOk (n : Nat) : Bool := decide (n < 16)

/-- Every field of the instruction fits the field of the word that encodes it. -/
def Instr.wf : Instr → Bool
  | .op00E0 => true
  | .op00EE => true
  | .op1NNN _ => true
  | .op2NNN _ => true
  | .op3XNN x _ => regOk x
  | .op4XNN x _ => regOk x
  | .op5XY0 x y => regOk x && regOk y
  | .op6XNN x _ => regOk x
  | .op7XNN x _ => regOk x
  | .op8XY0 x y => regOk x && regOk y
  | .op8XY1 x y => regOk x && regOk y
  | .op8XY2 x y => regOk x && regOk y
  | .op8XY3 x y => regOk x && regOk y
  | .op8XY4 x y => regOk x && regOk y
  | .op8XY5 x y => regOk x && regOk y
  | .op8XY6 x y => regOk x && regOk y
  | .op8XY7 x y => regOk x && regOk y
  | .op8XYE x y => regOk x && regOk y
  | .op9XY0 x y => regOk x && regOk y
  | .opANNN _ => true
  | .opCXNN x _ => regOk x
  | .opDXYN x y n => regOk x && regOk y && countOk n
  | .opFX07 x => regOk x
  | .opFX15 x => regOk x
  | .opFX1E x => regOk x
  | .opFX29 x => regOk x
  | .opFX33 x => regOk x
  | .opFX55 x => regOk x
  | .opFX65 x => regOk x

end Sys2Proof
end

