-- ==== Sys2Proof/Decode.lean ====
section
/-! DEFINITION. The opcode table, the decoder and the encoder (30_encoding.md R80 to R87). The decoder is total on any
bytes and rejects by name; the encoder is written from the same table. -/

namespace Sys2Proof

/-! ## Fields (30_encoding.md R80) -/

/-- `w[15:12]`, "high nibble of byte1 = opcode family". -/
def fieldF (w : Word) : BitVec 4 := w.extractLsb' 12 4

/-- `X = w[11:8]`. -/
def fieldX (w : Word) : BitVec 4 := w.extractLsb' 8 4

/-- `Y = w[7:4]`. -/
def fieldY (w : Word) : BitVec 4 := w.extractLsb' 4 4

/-- `N = w[3:0]`, the row count of DXYN or the sub-opcode of family 8. -/
def fieldN (w : Word) : BitVec 4 := w.extractLsb' 0 4

/-- `NN = w[7:0]`, the immediate byte or the sub-opcode of family F. -/
def fieldNN (w : Word) : Byte := w.extractLsb' 0 8

/-- `NNN = w[11:0]`, the address immediate. -/
def fieldNNN (w : Word) : Addr12 := w.extractLsb' 0 12

/-- An instruction word from its two bytes, the byte at the lower address high (20_memory.md R59, R60). -/
def joinBytes (hi lo : Byte) : Word := hi ++ lo

/-- The byte of a word that lies at the lower address (20_memory.md R59). -/
def highByte (w : Word) : Byte := w.extractLsb' 8 8

/-- The byte of a word that lies at the higher address (20_memory.md R59). -/
def lowByte (w : Word) : Byte := w.extractLsb' 0 8

/-! ## The opcode table (30_encoding.md R81, spec/opcode_table.json) -/

/-- A row of 30_encoding.md R81: a word selects it when `w & mask = match`. -/
structure Row where
  pattern : String
  bits : Word
  mask : Word
  deriving DecidableEq, Repr

/-- "A word selects a row when `w & mask = match`" (30_encoding.md R81). -/
def Row.selects (r : Row) (w : Word) : Bool := w &&& r.mask == r.bits

/-- The row of 30_encoding.md R81 that an instruction belongs to. -/
def Instr.row : Instr → Row
  | .op00E0 => ⟨"00E0", 0x00E0#16, 0xFFFF#16⟩
  | .op00EE => ⟨"00EE", 0x00EE#16, 0xFFFF#16⟩
  | .op1NNN _ => ⟨"1NNN", 0x1000#16, 0xF000#16⟩
  | .op2NNN _ => ⟨"2NNN", 0x2000#16, 0xF000#16⟩
  | .op3XNN _ _ => ⟨"3XNN", 0x3000#16, 0xF000#16⟩
  | .op4XNN _ _ => ⟨"4XNN", 0x4000#16, 0xF000#16⟩
  | .op5XY0 _ _ => ⟨"5XY0", 0x5000#16, 0xF00F#16⟩
  | .op6XNN _ _ => ⟨"6XNN", 0x6000#16, 0xF000#16⟩
  | .op7XNN _ _ => ⟨"7XNN", 0x7000#16, 0xF000#16⟩
  | .op8XY0 _ _ => ⟨"8XY0", 0x8000#16, 0xF00F#16⟩
  | .op8XY1 _ _ => ⟨"8XY1", 0x8001#16, 0xF00F#16⟩
  | .op8XY2 _ _ => ⟨"8XY2", 0x8002#16, 0xF00F#16⟩
  | .op8XY3 _ _ => ⟨"8XY3", 0x8003#16, 0xF00F#16⟩
  | .op8XY4 _ _ => ⟨"8XY4", 0x8004#16, 0xF00F#16⟩
  | .op8XY5 _ _ => ⟨"8XY5", 0x8005#16, 0xF00F#16⟩
  | .op8XY6 _ _ => ⟨"8XY6", 0x8006#16, 0xF00F#16⟩
  | .op8XY7 _ _ => ⟨"8XY7", 0x8007#16, 0xF00F#16⟩
  | .op8XYE _ _ => ⟨"8XYE", 0x800E#16, 0xF00F#16⟩
  | .op9XY0 _ _ => ⟨"9XY0", 0x9000#16, 0xF00F#16⟩
  | .opANNN _ => ⟨"ANNN", 0xA000#16, 0xF000#16⟩
  | .opCXNN _ _ => ⟨"CXNN", 0xC000#16, 0xF000#16⟩
  | .opDXYN _ _ _ => ⟨"DXYN", 0xD000#16, 0xF000#16⟩
  | .opFX07 _ => ⟨"FX07", 0xF007#16, 0xF0FF#16⟩
  | .opFX15 _ => ⟨"FX15", 0xF015#16, 0xF0FF#16⟩
  | .opFX1E _ => ⟨"FX1E", 0xF01E#16, 0xF0FF#16⟩
  | .opFX29 _ => ⟨"FX29", 0xF029#16, 0xF0FF#16⟩
  | .opFX33 _ => ⟨"FX33", 0xF033#16, 0xF0FF#16⟩
  | .opFX55 _ => ⟨"FX55", 0xF055#16, 0xF0FF#16⟩
  | .opFX65 _ => ⟨"FX65", 0xF065#16, 0xF0FF#16⟩

/-- The 29 rows of 30_encoding.md R81, in its order. -/
def opcodeTable : List Row :=
  [⟨"00E0", 0x00E0#16, 0xFFFF#16⟩, ⟨"00EE", 0x00EE#16, 0xFFFF#16⟩, ⟨"1NNN", 0x1000#16, 0xF000#16⟩, ⟨"2NNN", 0x2000#16, 0xF000#16⟩, ⟨"3XNN", 0x3000#16, 0xF000#16⟩, ⟨"4XNN", 0x4000#16, 0xF000#16⟩] ++
  [⟨"5XY0", 0x5000#16, 0xF00F#16⟩, ⟨"6XNN", 0x6000#16, 0xF000#16⟩, ⟨"7XNN", 0x7000#16, 0xF000#16⟩, ⟨"8XY0", 0x8000#16, 0xF00F#16⟩, ⟨"8XY1", 0x8001#16, 0xF00F#16⟩, ⟨"8XY2", 0x8002#16, 0xF00F#16⟩] ++
  [⟨"8XY3", 0x8003#16, 0xF00F#16⟩, ⟨"8XY4", 0x8004#16, 0xF00F#16⟩, ⟨"8XY5", 0x8005#16, 0xF00F#16⟩, ⟨"8XY6", 0x8006#16, 0xF00F#16⟩, ⟨"8XY7", 0x8007#16, 0xF00F#16⟩, ⟨"8XYE", 0x800E#16, 0xF00F#16⟩] ++
  [⟨"9XY0", 0x9000#16, 0xF00F#16⟩, ⟨"ANNN", 0xA000#16, 0xF000#16⟩, ⟨"CXNN", 0xC000#16, 0xF000#16⟩, ⟨"DXYN", 0xD000#16, 0xF000#16⟩, ⟨"FX07", 0xF007#16, 0xF0FF#16⟩, ⟨"FX15", 0xF015#16, 0xF0FF#16⟩] ++
  [⟨"FX1E", 0xF01E#16, 0xF0FF#16⟩, ⟨"FX29", 0xF029#16, 0xF0FF#16⟩, ⟨"FX33", 0xF033#16, 0xF0FF#16⟩, ⟨"FX55", 0xF055#16, 0xF0FF#16⟩, ⟨"FX65", 0xF065#16, 0xF0FF#16⟩]

/-! ## Decoding (30_encoding.md R84 to R87) -/

/-- Why bytes decode to no instruction. Each of the first two is the fatal UnimplementedInstruction of 30_encoding.md R85. -/
inductive Reject where
  /-- "no matching instruction within a recognized family" (30_encoding.md R85). -/
  | noRowInFamily
  /-- "a family value itself unrecognized": families 0xB and 0xE (30_encoding.md R84, R85). -/
  | unknownFamily
  /-- Fewer than the two bytes of an instruction (30_encoding.md R87). -/
  | truncated
  deriving DecidableEq, Repr

/-- Family 0x0: "the whole word must be 0x00E0 or 0x00EE" (30_encoding.md R84, the spec's decision D7, log 15). -/
def decodeFamily0 (w : Word) : Except Reject Instr :=
  if w = 0x00E0#16 then .ok .op00E0
  else if w = 0x00EE#16 then .ok .op00EE
  else .error .noRowInFamily

/-- Family 0x8: "the low nibble N selects among 0, 1, 2, 3, 4, 5, 6, 7 and E" (30_encoding.md R84). -/
def decodeFamily8 (x y : Nat) (n : BitVec 4) : Except Reject Instr :=
  match n.toNat with
  | 0x0 => .ok (.op8XY0 x y)
  | 0x1 => .ok (.op8XY1 x y)
  | 0x2 => .ok (.op8XY2 x y)
  | 0x3 => .ok (.op8XY3 x y)
  | 0x4 => .ok (.op8XY4 x y)
  | 0x5 => .ok (.op8XY5 x y)
  | 0x6 => .ok (.op8XY6 x y)
  | 0x7 => .ok (.op8XY7 x y)
  | 0xE => .ok (.op8XYE x y)
  | _ => .error .noRowInFamily

/-- Family 0xF: "the whole second byte NN selects" (30_encoding.md R84, 90_conflicts.md C2). -/
def decodeFamilyF (x : Nat) (nn : Byte) : Except Reject Instr :=
  match nn.toNat with
  | 0x07 => .ok (.opFX07 x)
  | 0x15 => .ok (.opFX15 x)
  | 0x1E => .ok (.opFX1E x)
  | 0x29 => .ok (.opFX29 x)
  | 0x33 => .ok (.opFX33 x)
  | 0x55 => .ok (.opFX55 x)
  | 0x65 => .ok (.opFX65 x)
  | _ => .error .noRowInFamily

/-- Families 0x5 and 0x9: "the low nibble must be 0" (30_encoding.md R84, the spec's decision D8, log 15). -/
def decodeLowZero (n : BitVec 4) (i : Instr) : Except Reject Instr :=
  if n = 0#4 then .ok i else .error .noRowInFamily

/-- The dispatch of 30_encoding.md R84: by family, with sub-dispatch inside 0x0, 0x5, 0x8, 0x9 and 0xF. -/
def decode (w : Word) : Except Reject Instr :=
  let x := (fieldX w).toNat
  let y := (fieldY w).toNat
  match (fieldF w).toNat with
  | 0x0 => decodeFamily0 w
  | 0x1 => .ok (.op1NNN (fieldNNN w))
  | 0x2 => .ok (.op2NNN (fieldNNN w))
  | 0x3 => .ok (.op3XNN x (fieldNN w))
  | 0x4 => .ok (.op4XNN x (fieldNN w))
  | 0x5 => decodeLowZero (fieldN w) (.op5XY0 x y)
  | 0x6 => .ok (.op6XNN x (fieldNN w))
  | 0x7 => .ok (.op7XNN x (fieldNN w))
  | 0x8 => decodeFamily8 x y (fieldN w)
  | 0x9 => decodeLowZero (fieldN w) (.op9XY0 x y)
  | 0xA => .ok (.opANNN (fieldNNN w))
  | 0xC => .ok (.opCXNN x (fieldNN w))
  | 0xD => .ok (.opDXYN x y (fieldN w).toNat)
  | 0xF => decodeFamilyF x (fieldNN w)
  | _ => .error .unknownFamily

/-- Decoding from memory bytes: two bytes make one instruction, the rest is left (30_encoding.md R83, R87). -/
def decodeBytes : List Byte → Except Reject (Instr × List Byte)
  | hi :: lo :: rest =>
    match decode (joinBytes hi lo) with
    | .ok i => .ok (i, rest)
    | .error e => .error e
  | _ => .error .truncated

/-! ## Encoding (30_encoding.md R80 to R82) -/

/-- A word from a family nibble and an address immediate. -/
def wordNNN (f : BitVec 4) (nnn : Addr12) : Word := f ++ nnn

/-- A word from a family nibble, a register index and an immediate byte (or the sub-opcode of family F). -/
def wordXNN (f : BitVec 4) (x : Nat) (nn : Byte) : Word := f ++ (BitVec.ofNat 4 x ++ nn)

/-- A word from a family nibble, two register indices and the low nibble. -/
def wordXYN (f : BitVec 4) (x y : Nat) (n : BitVec 4) : Word :=
  f ++ (BitVec.ofNat 4 x ++ (BitVec.ofNat 4 y ++ n))

/-- The word of an instruction, from its row of 30_encoding.md R81. -/
def encode : Instr → Word
  | .op00E0 => 0x00E0#16
  | .op00EE => 0x00EE#16
  | .op1NNN nnn => wordNNN 0x1#4 nnn
  | .op2NNN nnn => wordNNN 0x2#4 nnn
  | .op3XNN x nn => wordXNN 0x3#4 x nn
  | .op4XNN x nn => wordXNN 0x4#4 x nn
  | .op5XY0 x y => wordXYN 0x5#4 x y 0x0#4
  | .op6XNN x nn => wordXNN 0x6#4 x nn
  | .op7XNN x nn => wordXNN 0x7#4 x nn
  | .op8XY0 x y => wordXYN 0x8#4 x y 0x0#4
  | .op8XY1 x y => wordXYN 0x8#4 x y 0x1#4
  | .op8XY2 x y => wordXYN 0x8#4 x y 0x2#4
  | .op8XY3 x y => wordXYN 0x8#4 x y 0x3#4
  | .op8XY4 x y => wordXYN 0x8#4 x y 0x4#4
  | .op8XY5 x y => wordXYN 0x8#4 x y 0x5#4
  | .op8XY6 x y => wordXYN 0x8#4 x y 0x6#4
  | .op8XY7 x y => wordXYN 0x8#4 x y 0x7#4
  | .op8XYE x y => wordXYN 0x8#4 x y 0xE#4
  | .op9XY0 x y => wordXYN 0x9#4 x y 0x0#4
  | .opANNN nnn => wordNNN 0xA#4 nnn
  | .opCXNN x nn => wordXNN 0xC#4 x nn
  | .opDXYN x y n => wordXYN 0xD#4 x y (BitVec.ofNat 4 n)
  | .opFX07 x => wordXNN 0xF#4 x 0x07#8
  | .opFX15 x => wordXNN 0xF#4 x 0x15#8
  | .opFX1E x => wordXNN 0xF#4 x 0x1E#8
  | .opFX29 x => wordXNN 0xF#4 x 0x29#8
  | .opFX33 x => wordXNN 0xF#4 x 0x33#8
  | .opFX55 x => wordXNN 0xF#4 x 0x55#8
  | .opFX65 x => wordXNN 0xF#4 x 0x65#8

/-- The bytes of an instruction as memory stores them, high byte at the lower address (20_memory.md R59). -/
def encodeBytes (i : Instr) : List Byte := [highByte (encode i), lowByte (encode i)]

/-! ## The host's reading of a table word -/

/-- The low `nbits` of `w` as one 16-bit word: the longest instruction is 16 bits (30_encoding.md R87) and every bit
above `nbits` is 0. -/
def tableWord (nbits w : Nat) : Word := BitVec.ofNat 16 (w % 2 ^ nbits)

/-- The instruction the decoder reads from the bytes of a table word laid out as memory stores them. -/
def decodeTableWord (nbits w : Nat) : Option Instr :=
  match decodeBytes [highByte (tableWord nbits w), lowByte (tableWord nbits w)] with
  | .ok (i, _) => some i
  | .error _ => none

end Sys2Proof
end

