-- ==== Sys2Proof/Machine/State.lean ====
section
/-! DEFINITION. The state of the block (10_state.md R39), the reasons a step can stop, and the state after reset
(70_reset_and_hazards.md R240). State is plain data. -/

namespace Sys2Proof.Machine

/-! ## Memory and framebuffer -/

/-- Memory as address and byte pairs in one canonical form: addresses strictly rising, each below 4096, no entry equal to
what an unlisted address reads as (`Memory.wf`, `Memory.initial` in Machine/Ops.lean). -/
abbrev Memory := List Host.Cell

/-- The framebuffer of 10_state.md R31 as 32 rows of 64 pixels: the pixel `FB[x][y]` is entry `x` of row `y`. -/
abbrev Framebuffer := Vector (Vector Bool 64) 32

/-- "Cleared (all pixels off)" (10_state.md R31). -/
def Framebuffer.clear : Framebuffer := Vector.replicate 32 (Vector.replicate 64 false)

/-! ## Faults (60_exceptions.md R200, R201) -/

/-- The fault kinds of 60_exceptions.md R200. A program meets them as the record in `State.fault`. -/
inductive FaultKind where
  /-- Code 0: an access range outside 0x000-0xFFF, or a font write under FONT_PROTECT. -/
  | outOfBounds
  /-- Code 1: a register index outside 0..15; no decoded instruction raises it (10_state.md R22, log 7). -/
  | invalidRegister
  /-- Code 2: 00EE with an empty stack (41_control_flow.md R120). -/
  | stackUnderflow
  /-- Code 3: a word that matches no row of the opcode table (30_encoding.md R85). -/
  | unimplementedInstruction
  /-- Code 4: 2NNN with STACK_CAP entries on the stack (41_control_flow.md R123). -/
  | stackOverflow
  deriving DecidableEq, Repr

/-- The fault record `{code, kind, A, w, info}` of 60_exceptions.md R201; the code is a function of the kind
(`FaultKind.code` in Machine/Ops.lean, log 6). -/
structure FaultRecord where
  kind : FaultKind
  /-- `A`, the address of the instruction being executed. -/
  addr : Word
  /-- `w`, its word, or `none` when the fetch itself faulted. -/
  word : Option Word
  /-- `(addr, count)` of the failing access for OutOfBounds, else empty. -/
  access : Option (Nat × Nat)
  deriving DecidableEq, Repr

/-! ## The scheduler's data (60_exceptions.md R220, R221, 10_state.md R36, R43, R44) -/

/-- The four kinds of atomic step of 60_exceptions.md R220. -/
inductive Action where
  | tick
  | timerDecay
  | refresh
  | stop
  deriving DecidableEq, Repr

/-- Where the reference scheduler of 60_exceptions.md R221 stands in one iteration: before its first accumulation, or in
one of its three while loops. -/
inductive Phase where
  | start
  | cpuLoop
  | timerLoop
  | refreshLoop
  deriving DecidableEq, Repr

/-- What the outside world has decided about the next steps: a step chosen freely (60_exceptions.md R220), or an
iteration of the reference scheduler with the elapsed time `delta` it reads from the clock (60_exceptions.md R221). -/
inductive Turn where
  | act (a : Action)
  | iteration (phase : Phase) (delta : Nat)
  deriving DecidableEq, Repr

/-- The accumulators of 10_state.md R36, in units of the host's clock (log 4). -/
structure Accumulators where
  accC : Nat
  accT : Nat
  accR : Nat
  deriving DecidableEq, Repr

/-- The scheduler: its accumulators, the turns that come next, first one first, and the host's stop. With no turn left the
next step is a Tick (DESIGN CHOICE, log 3). -/
structure Scheduler where
  acc : Accumulators
  agenda : List Turn
  /-- The stop input of 10_state.md R44: how many atomic steps are still taken before the host's Stop, or none when no stop
  comes. It lands between any two steps, inside an iteration too (60_exceptions.md R221, R225, log 24). -/
  stopAfter : Option Nat
  deriving DecidableEq, Repr

/-- The random source (10_state.md R35, R42): the bytes a deterministic harness injects, next one first, and, for the
host's own generator, its seed and how many bytes have been drawn (log 2). -/
structure Rng where
  injected : List Byte
  seed : Nat
  drawn : Nat
  deriving DecidableEq, Repr

/-! ## The state (10_state.md R39) -/

/-- Everything the spec gives the block, and the model's own fields named in INVENTORY.md. -/
structure State where
  /-- `M`, 20_memory.md R50. -/
  mem : Memory
  /-- `V[0..15]`, 10_state.md R20. -/
  v : Vector Byte 16
  /-- The index register `I`, 10_state.md R24. -/
  idx : Word
  /-- 10_state.md R25. -/
  pc : Word
  /-- The call stack `S`, 10_state.md R29, the most recently pushed address first. -/
  stack : List Word
  /-- The delay timer `DT`, 10_state.md R30. -/
  dt : Byte
  /-- `FB`, 10_state.md R31. -/
  fb : Framebuffer
  /-- The quirks and parameters, 10_state.md R32. -/
  config : Config
  /-- 10_state.md R33. -/
  halted : Bool
  /-- 10_state.md R34. -/
  fault : Option FaultRecord
  /-- The model's own: the host's stop has occurred (60_exceptions.md R225, log 24). -/
  stopped : Bool
  /-- The model's own: the final render of the halt has been emitted (60_exceptions.md R224, log 11). -/
  finalRenderDone : Bool
  /-- 10_state.md R35. -/
  rng : Rng
  /-- 10_state.md R36 and the model's own agenda and stop input (log 3, log 24). -/
  sched : Scheduler
  /-- The model's own: the render requests emitted so far, newest first (10_state.md R45, log 11). -/
  renders : List Framebuffer
  deriving DecidableEq, Repr

/-! ## Reasons to stop -/

/-- Why no further step is taken. Every one is safe: the spec says the block "takes no step of any kind". -/
inductive Fault where
  /-- `step` on a state whose `fault` is set (60_exceptions.md R202). Safe. -/
  | runFaulted (r : FaultRecord)
  /-- `step` on a halted state whose final render has been emitted (60_exceptions.md R224): the normal end of a run. Safe. -/
  | runHalted
  /-- `step` on a stopped state (60_exceptions.md R225). Safe. -/
  | runStopped
  /-- `State.construct` on an image that does not fit: the copy's OutOfBounds write (70_reset_and_hazards.md R242). Safe. -/
  | constructionOutOfBounds (addr count : Nat)
  deriving DecidableEq, Repr

/-- Refusals. No instruction of the table is refused, so nothing of the model raises one. -/
inductive Refusal where
  /-- An arm of `exec` without a meaning; safe. No arm is one. -/
  | notModelled (mnemonic : String)
  deriving DecidableEq, Repr

/-- The outcome of a step, an instruction or a construction. -/
abbrev Result := Host.Outcome State Fault Refusal

/-! ## Reset -/

/-- The block right after construction with the default configuration and FONT and an empty image
(70_reset_and_hazards.md R240, 10_state.md R39). `dt` is the spec's decision D2 (log 10); the model's own fields have the
values that INVENTORY.md and logs 2, 3, 11 and 24 name. -/
def State.reset : State where
  mem := []
  v := Vector.replicate 16 0#8
  idx := 0#16
  pc := 0x200#16
  stack := []
  dt := 0#8
  fb := Framebuffer.clear
  config := Config.standard
  halted := false
  fault := none
  stopped := false
  finalRenderDone := false
  rng := { injected := [], seed := 0, drawn := 0 }
  sched := { acc := { accC := 0, accT := 0, accR := 0 }, agenda := [], stopAfter := none }
  renders := []

end Sys2Proof.Machine
end

