-- ==== Sys2Proof/Machine/Ops.lean ====
section
/-! DEFINITION. The named operations over memory, registers, stack, random source, render output and faults
(00_scope.md R9, 20_memory.md, 60_exceptions.md R200 to R206). -/

namespace Sys2Proof.Machine

/-! ## Memory (20_memory.md R50 to R57) -/

/-- What an address that memory does not list reads as: the reset contents of 20_memory.md R53, FONT at 0x050-0x09F and
0 elsewhere (the default FONT is PRESUMED by the spec, log 9). -/
def Memory.initial (a : Nat) : Byte :=
  if 0x050 ≤ a ∧ a < 0x0A0 then Config.defaultFont.getD (a - 0x050) 0#8 else 0#8

/-- The byte `M[a]`. -/
def Memory.get : Memory → Nat → Byte
  | [], a => Memory.initial a
  | (k, b) :: rest, a => if k = a then b else Memory.get rest a

/-- `M[a] <- b`, keeping the canonical form: writing what an unlisted address reads as removes the entry. -/
def Memory.put : Memory → Nat → Byte → Memory
  | [], a, b => if b = Memory.initial a then [] else [(a, b)]
  | (k, c) :: rest, a, b =>
    if a < k then
      if b = Memory.initial a then (k, c) :: rest else (a, b) :: (k, c) :: rest
    else if k = a then
      if b = Memory.initial a then rest else (a, b) :: rest
    else (k, c) :: Memory.put rest a b

/-- The canonical form above an address: entries strictly rising from `lo`, below 4096, none redundant. -/
def Memory.wfFrom (lo : Nat) : Memory → Bool
  | [] => true
  | (k, b) :: rest =>
    decide (lo ≤ k) && decide (k < 4096) && decide (b ≠ Memory.initial k) && Memory.wfFrom (k + 1) rest

/-- The canonical form of memory. -/
def Memory.wf (m : Memory) : Bool := Memory.wfFrom 0 m

/-- The bytes `M[a], ..., M[a+n-1]`. -/
def Memory.range (m : Memory) (a : Nat) : Nat → List Byte
  | 0 => []
  | n + 1 => m.get a :: Memory.range m (a + 1) n

/-- `M[a+k] <- bs[k]` for every `k`. -/
def Memory.putAll (m : Memory) (a : Nat) : List Byte → Memory
  | [] => m
  | b :: bs => Memory.putAll (m.put a b) (a + 1) bs

/-- The bounds test of 20_memory.md R51, "the source's formula taken literally": neither `a` nor `a + n - 1` falls outside
[0, 4095], so the empty range at 0 fails (the spec's decision D17, log 14). -/
def inBounds (a n : Nat) : Bool :=
  decide (a ≤ 0xFFF) && decide (1 ≤ a + n) && decide (a + n - 1 ≤ 0xFFF)

/-- A range that meets the font region 0x050-0x09F (20_memory.md R57). -/
def meetsFont (a n : Nat) : Bool :=
  decide (0 < n) && decide (a < 0x0A0) && decide (0x050 < a + n)

/-- `MemRead(a, n)` of 20_memory.md R51; `none` is its OutOfBounds(a, n). -/
def memRead (m : Memory) (a n : Nat) : Option (List Byte) :=
  if inBounds a n then some (m.range a n) else none

/-- `MemRead16(a)` of 20_memory.md R60: the byte at the lower address is the high byte. -/
def memRead16 (m : Memory) (a : Nat) : Option Word :=
  if inBounds a 2 then some (joinBytes (m.get a) (m.get (a + 1))) else none

/-- Whether `MemWrite` of `n` bytes at `a` is allowed: the bounds test, and with FONT_PROTECT a range clear of the font
region (20_memory.md R51, R57, log 20). -/
def mayWrite (c : Config) (a n : Nat) : Bool :=
  inBounds a n && !(c.fontProtect && meetsFont a n)

/-! ## Updates of one part of the state -/

/-- Replaces memory. -/
def State.setMem (s : State) (m : Memory) : State := { s with mem := m }

/-- `V[r]`; `r` is 0..15 at every use that `guardRegs` has passed (10_state.md R22). -/
def State.getV (s : State) (r : Nat) : Byte := s.v[r]?.getD 0#8

/-- `V[r] <- b` (10_state.md R20: no register is hardwired). -/
def State.setV (s : State) (r : Nat) (b : Byte) : State := { s with v := s.v.setIfInBounds r b }

/-- `I <- w`. -/
def State.setIdx (s : State) (w : Word) : State := { s with idx := w }

/-- `pc <- w`. -/
def State.setPc (s : State) (w : Word) : State := { s with pc := w }

/-- Replaces the call stack. -/
def State.setStack (s : State) (l : List Word) : State := { s with stack := l }

/-- `DT <- b`. -/
def State.setDt (s : State) (b : Byte) : State := { s with dt := b }

/-- Replaces the framebuffer. -/
def State.setFb (s : State) (f : Framebuffer) : State := { s with fb := f }

/-- `halted <- true` (10_state.md R33). -/
def State.setHalted (s : State) : State := { s with halted := true }

/-- Stores a fault record (10_state.md R34). -/
def State.setFault (s : State) (r : FaultRecord) : State := { s with fault := some r }

/-- The host's stop has occurred (60_exceptions.md R225). -/
def State.setStopped (s : State) : State := { s with stopped := true }

/-- The final render of 60_exceptions.md R224 has been emitted. -/
def State.setFinalRenderDone (s : State) : State := { s with finalRenderDone := true }

/-- Replaces the random source. -/
def State.setRng (s : State) (r : Rng) : State := { s with rng := r }

/-- Replaces the scheduler's data. -/
def State.setSched (s : State) (c : Scheduler) : State := { s with sched := c }

/-- `emit Render` (40_display.md R103): one render request with a copy of the whole grid; no other state changes. -/
def State.emitRender (s : State) : State := { s with renders := s.fb :: s.renders }

/-- `V[15]`, the flag register (10_state.md R21). -/
abbrev VF : Nat := 15

/-! ## Program counter and stack (10_state.md R25 to R29) -/

/-- `pc <- (pc + 2) mod 65536`: the fetch's advance (30_encoding.md R83) and the skip (41_control_flow.md R128). -/
def State.advancePc (s : State) : State := s.setPc (s.pc + 2#16)

/-- `A`, the address the instruction was fetched from, "that is `pc - 2` after the fetch" (00_scope.md R11). -/
def State.fetchedAt (s : State) : Word := s.pc - 2#16

/-- "skip next instruction (`pc += 2`)" when the condition holds (41_control_flow.md R124 to R128). -/
def State.skipIf (s : State) (c : Bool) : State := if c then s.advancePc else s

/-- `push(v)` (10_state.md R29). -/
def State.push (s : State) (w : Word) : State := s.setStack (w :: s.stack)

/-- Whether the stack holds STACK_CAP entries (92_eei_decisions.md D3, log 18). -/
def State.stackFull (s : State) : Bool :=
  match s.config.stackCap with
  | none => false
  | some cap => decide (cap ≤ s.stack.length)

/-! ## Random source (60_exceptions.md R226) -/

/-- The byte `RandomByte()` draws next: the harness's next byte, or, with none left, the free value of the host's
generator (log 2). -/
def Rng.next (r : Rng) : Byte :=
  match r.injected with
  | [] => Config.randomByte r.seed r.drawn
  | b :: _ => b

/-- The random source after one draw. -/
def Rng.advance (r : Rng) : Rng :=
  { r with injected := r.injected.tail, drawn := r.drawn + 1 }

/-! ## Faults (60_exceptions.md R200 to R206) -/

/-- The codes of 60_exceptions.md R200 (the spec's decision D5). -/
def FaultKind.code : FaultKind → Nat
  | .outOfBounds => 0
  | .invalidRegister => 1
  | .stackUnderflow => 2
  | .unimplementedInstruction => 3
  | .stackOverflow => 4

/-- Fault entry of an instruction, the one shared operation of every fault after the fetch (60_exceptions.md R201, R202,
R205): the record is stored and nothing else changes; the pc keeps the fetch's `A + 2`. There is no handler, vector or mode
change, and no return from a fault (R206): `step` takes no further step (log 5). -/
def raiseWith (k : FaultKind) (w : Word) (access : Option (Nat × Nat)) (s : State) : Result :=
  .next (s.setFault { kind := k, addr := s.fetchedAt, word := some w, access := access })

/-- `raise K(info)` inside an instruction (00_scope.md R9), whose word is its encoding (log 6). -/
def raise (k : FaultKind) (i : Instr) (access : Option (Nat × Nat)) (s : State) : Result :=
  raiseWith k (encode i) access s

/-- Fault entry of a fetch (30_encoding.md R83): OutOfBounds(A, 2) with no word, the pc unchanged. -/
def raiseFetch (s : State) : Result :=
  .next (s.setFault { kind := .outOfBounds, addr := s.pc, word := none, access := some (s.pc.toNat, 2) })

end Sys2Proof.Machine
end

