-- ==== Sys2Proof/Machine/Boot.lean ====
section
/-! DEFINITION. Construction (70_reset_and_hazards.md R240, R242, R244). -/

namespace Sys2Proof.Machine

/-- The state that construction fills: memory with FONT over the zeroes and then the image at 0x200, every register at
its reset value, the configuration and the host's random source (70_reset_and_hazards.md R240). -/
def State.booted (c : Config) (font : Vector Byte 80) (r : Rng) (image : List Byte) : State :=
  { State.reset with
    mem := (Memory.putAll [] 0x050 font.toList).putAll 0x200 image
    config := c
    rng := r }

/-- Reset as construction (70_reset_and_hazards.md R240). An image longer than 3584 bytes fails with the OutOfBounds of
the copy's write at 0x1000, and no tick runs (R242, log 12); an empty image is accepted (R243). -/
def State.construct (c : Config) (font : Vector Byte 80) (r : Rng) (image : List Byte) : Result :=
  if image.length ≤ 0x1000 - 0x200 then .next (State.booted c font r image)
  else .fault (.constructionOutOfBounds 0x1000 1)

end Sys2Proof.Machine
end

