-- ==== Sys2Proof/Machine/Flags.lean ====
section
/-! DEFINITION. The flag computations: every value an instruction writes to VF as a flag (42_alu.md R152,
10_state.md R21). Each is on the exact operand values, before any wrap (42_alu.md R140). -/

namespace Sys2Proof.Machine

/-- `b ? 1 : 0` (00_scope.md R9). -/
def flagByte (b : Bool) : Byte := if b then 1#8 else 0#8

/-- "addition `a + b` gives carry 1 when `a + b > 255`" (42_alu.md R152). -/
def carryOf (a b : Byte) : Byte := flagByte (decide (255 < a.toNat + b.toNat))

/-- "subtraction `a - b` gives 1 when `a >= b`" (42_alu.md R152). -/
def noBorrowOf (a b : Byte) : Byte := flagByte (decide (b.toNat ≤ a.toNat))

/-- "shift right gives the bit shifted out (bit 0)" (42_alu.md R152): `a & 1`. -/
def shiftedOutRight (a : Byte) : Byte := a &&& 1#8

/-- "shift left gives the bit shifted out (bit 7)" (42_alu.md R152): `(a >> 7) & 1`. -/
def shiftedOutLeft (a : Byte) : Byte := (a >>> 7) &&& 1#8

/-- `(I + V[X] > 0xFFF) ? 1 : 0` (43_index_memory.md R171). -/
def indexOverflowOf (i : Word) (b : Byte) : Byte := flagByte (decide (0xFFF < i.toNat + b.toNat))

/-- `c ? 1 : 0` on the collision of a draw (40_display.md R105). -/
def collisionOf (c : Bool) : Byte := flagByte c

end Sys2Proof.Machine
end

