-- ==== Sys2Proof/Machine/Operands.lean ====
section
/-! DEFINITION. The operand forms: guarded register indices, addresses, the register block V[0..X], decimal digits,
glyph addresses and index arithmetic (30_encoding.md R82, 43_index_memory.md R176). -/

namespace Sys2Proof.Machine

/-- "Indexed register access takes an index that must be in 0–15; any other index fails with InvalidRegister"
(10_state.md R22). The indices an instruction uses are checked before its first effect, so a fault changes nothing
(60_exceptions.md R205, log 7). -/
def guardRegs (rs : List Nat) (i : Instr) (s : State) (run : Result) : Result :=
  if rs.all regOk then run else raise .invalidRegister i none s

/-- The registers `V[r], V[r+1], ...`, `n` of them. -/
def State.block (s : State) (r : Nat) : Nat → List Byte
  | 0 => []
  | n + 1 => s.getV r :: State.block s (r + 1) n

/-- `V[r] <- bs[0]`, `V[r+1] <- bs[1]`, ... -/
def State.loadBlock (s : State) (r : Nat) : List Byte → State
  | [] => s
  | b :: bs => State.loadBlock (s.setV r b) (r + 1) bs

/-- `I + k` modulo 0x1000 (43_index_memory.md R176): what arithmetic that writes I stores. -/
def wrapIndex (i : Word) (k : Nat) : Word := BitVec.ofNat 16 ((i.toNat + k) % 0x1000)

/-- "`I <- (I + X + 1) mod 0x1000`" when quirk storeLoadIncrementsIndex is on (43_index_memory.md R174, R175). -/
def State.stepIndex (s : State) (count : Nat) : State :=
  if s.config.storeLoadIncrementsIndex then s.setIdx (wrapIndex s.idx count) else s

/-- `fontGlyphAddress` of a digit: `0x050 + 5 * d` up to 0xF (20_memory.md R54), the OPEN GLYPH_OOR above
(43_index_memory.md R172, log 1). -/
def glyphAddress (d : Byte) : Word :=
  if d.toNat ≤ 0xF then BitVec.ofNat 16 (0x050 + 5 * d.toNat) else Config.glyphOor d

/-- "hundreds/tens/ones decimal digits" (43_index_memory.md R173). -/
def decimalDigits (b : Byte) : List Byte :=
  [BitVec.ofNat 8 (b.toNat / 100), BitVec.ofNat 8 (b.toNat / 10 % 10), BitVec.ofNat 8 (b.toNat % 10)]

end Sys2Proof.Machine
end

