-- ==== Sys2Proof/Machine/Alu.lean ====
section
/-! DEFINITION. Register loads and arithmetic-logic instructions (42_alu.md). Statements run in the order written, so a
later one reads the VF an earlier one wrote (42_alu.md R154, log 13). -/

namespace Sys2Proof.Machine

/-- 6XNN (42_alu.md R141): `V[X] <- NN`. -/
def exec6XNN (x : Nat) (nn : Byte) (s : State) : Result :=
  guardRegs [x] (.op6XNN x nn) s (.next (s.setV x nn))

/-- 7XNN (42_alu.md R142): `V[X] <- (V[X] + NN) mod 256`, no flag. -/
def exec7XNN (x : Nat) (nn : Byte) (s : State) : Result :=
  guardRegs [x] (.op7XNN x nn) s (.next (s.setV x (s.getV x + nn)))

/-- 8XY0 (42_alu.md R143): `V[X] <- V[Y]`. -/
def exec8XY0 (x y : Nat) (s : State) : Result :=
  guardRegs [x, y] (.op8XY0 x y) s (.next (s.setV x (s.getV y)))

/-- 8XY1 (42_alu.md R144): `V[X] <- V[X] | V[Y]`, VF not reset. -/
def exec8XY1 (x y : Nat) (s : State) : Result :=
  guardRegs [x, y] (.op8XY1 x y) s (.next (s.setV x (s.getV x ||| s.getV y)))

/-- 8XY2 (42_alu.md R145): `V[X] <- V[X] & V[Y]`. -/
def exec8XY2 (x y : Nat) (s : State) : Result :=
  guardRegs [x, y] (.op8XY2 x y) s (.next (s.setV x (s.getV x &&& s.getV y)))

/-- 8XY3 (42_alu.md R146): `V[X] <- V[X] ^ V[Y]`. -/
def exec8XY3 (x y : Nat) (s : State) : Result :=
  guardRegs [x, y] (.op8XY3 x y) s (.next (s.setV x (s.getV x ^^^ s.getV y)))

/-- The shape of 8XY4, 8XY5 and 8XY7: first `V[F] <- flag`, then `V[X] <- result`, each read from the state before it. -/
def State.flagThenResult (s : State) (x y : Nat) (flag result : Byte → Byte → Byte) : State :=
  let s1 := s.setV VF (flag (s.getV x) (s.getV y))
  s1.setV x (result (s1.getV x) (s1.getV y))

/-- 8XY4 (42_alu.md R147): carry into VF, then the sum modulo 256. -/
def exec8XY4 (x y : Nat) (s : State) : Result :=
  guardRegs [x, y] (.op8XY4 x y) s (.next (s.flagThenResult x y carryOf (fun a b => a + b)))

/-- 8XY5 (42_alu.md R148): no-borrow of `V[X] - V[Y]` into VF, then the difference modulo 256. -/
def exec8XY5 (x y : Nat) (s : State) : Result :=
  guardRegs [x, y] (.op8XY5 x y) s (.next (s.flagThenResult x y noBorrowOf (fun a b => a - b)))

/-- 8XY7 (42_alu.md R150): no-borrow of `V[Y] - V[X]` into VF, then the difference modulo 256. -/
def exec8XY7 (x y : Nat) (s : State) : Result :=
  guardRegs [x, y] (.op8XY7 x y) s
    (.next (s.flagThenResult x y (fun a b => noBorrowOf b a) (fun a b => b - a)))

/-- The registers a shift accesses: "`Y` used only under quirk `shiftLoadsY`" (42_alu.md R149, R151). -/
def shiftRegs (c : Config) (x y : Nat) : List Nat := if c.shiftLoadsY then [x, y] else [x]

/-- The shape of 8XY6 and 8XYE: under quirk shiftLoadsY first `V[X] <- V[Y]`; then `V[F] <- bit`; then
`V[X] <- shifted`, each read from the state before it. -/
def State.shiftInPlace (s : State) (x y : Nat) (bit shifted : Byte → Byte) : State :=
  let s0 := if s.config.shiftLoadsY then s.setV x (s.getV y) else s
  let s1 := s0.setV VF (bit (s0.getV x))
  s1.setV x (shifted (s1.getV x))

/-- 8XY6 (42_alu.md R149): bit 0 into VF, then `V[X] >> 1`. -/
def exec8XY6 (x y : Nat) (s : State) : Result :=
  guardRegs (shiftRegs s.config x y) (.op8XY6 x y) s
    (.next (s.shiftInPlace x y shiftedOutRight (fun a => a >>> 1)))

/-- 8XYE (42_alu.md R151): bit 7 into VF, then `V[X] << 1` modulo 256. -/
def exec8XYE (x y : Nat) (s : State) : Result :=
  guardRegs (shiftRegs s.config x y) (.op8XYE x y) s
    (.next (s.shiftInPlace x y shiftedOutLeft (fun a => a <<< 1)))

/-- CXNN (42_alu.md R155): one draw, then `V[X] <- r & NN`. -/
def execCXNN (x : Nat) (nn : Byte) (s : State) : Result :=
  guardRegs [x] (.opCXNN x nn) s (.next ((s.setRng s.rng.advance).setV x (s.rng.next &&& nn)))

end Sys2Proof.Machine
end

