-- ==== Sys2Proof/Machine/Control.lean ====
section
/-! DEFINITION. Control transfer (41_control_flow.md). Each runs with `pc = A + 2`. -/

namespace Sys2Proof.Machine

/-- 00EE (41_control_flow.md R120): `pc <- pop()`, StackUnderflow on an empty stack. -/
def exec00EE (s : State) : Result :=
  match s.stack with
  | [] => raise .stackUnderflow .op00EE none s
  | w :: rest => .next ((s.setStack rest).setPc w)

/-- 1NNN (41_control_flow.md R121, R122): `pc <- NNN`; a jump to its own address halts when HALT_ON_SELF_JUMP is on. -/
def exec1NNN (nnn : Addr12) (s : State) : Result :=
  let t := s.setPc (zext16 nnn)
  .next (if s.config.haltOnSelfJump && zext16 nnn == s.fetchedAt then t.setHalted else t)

/-- 2NNN (41_control_flow.md R123): `push(pc)`, `pc <- NNN`; StackOverflow on a full stack of finite STACK_CAP. -/
def exec2NNN (nnn : Addr12) (s : State) : Result :=
  if s.stackFull then raise .stackOverflow (.op2NNN nnn) none s
  else .next ((s.push s.pc).setPc (zext16 nnn))

/-- 3XNN (41_control_flow.md R124): skip if `V[X] = NN`. -/
def exec3XNN (x : Nat) (nn : Byte) (s : State) : Result :=
  guardRegs [x] (.op3XNN x nn) s (.next (s.skipIf (s.getV x == nn)))

/-- 4XNN (41_control_flow.md R125): skip if `V[X] != NN`. -/
def exec4XNN (x : Nat) (nn : Byte) (s : State) : Result :=
  guardRegs [x] (.op4XNN x nn) s (.next (s.skipIf (s.getV x != nn)))

/-- 5XY0 (41_control_flow.md R126): skip if `V[X] = V[Y]`. -/
def exec5XY0 (x y : Nat) (s : State) : Result :=
  guardRegs [x, y] (.op5XY0 x y) s (.next (s.skipIf (s.getV x == s.getV y)))

/-- 9XY0 (41_control_flow.md R127): skip if `V[X] != V[Y]`. -/
def exec9XY0 (x y : Nat) (s : State) : Result :=
  guardRegs [x, y] (.op9XY0 x y) s (.next (s.skipIf (s.getV x != s.getV y)))

end Sys2Proof.Machine
end

