-- ==== Sys2Proof/Machine/Index.lean ====
section
/-! DEFINITION. Index register and memory-access instructions (43_index_memory.md). -/

namespace Sys2Proof.Machine

/-- ANNN (43_index_memory.md R170): `I <- zext_16(NNN)`. -/
def execANNN (nnn : Addr12) (s : State) : Result :=
  .next (s.setIdx (zext16 nnn))

/-- FX1E (43_index_memory.md R171): under quirk indexOverflowFlag first `V[F] <- (I + V[X] > 0xFFF)`, then
`I <- (I + V[X]) mod 0x1000`, which reads the VF just written when `X = F` (log 13). -/
def execFX1E (x : Nat) (s : State) : Result :=
  let s1 := if s.config.indexOverflowFlag then s.setV VF (indexOverflowOf s.idx (s.getV x)) else s
  guardRegs [x] (.opFX1E x) s (.next (s1.setIdx (wrapIndex s1.idx (s1.getV x).toNat)))

/-- FX29 (43_index_memory.md R172): `I <-` the glyph address of digit `V[X]`. -/
def execFX29 (x : Nat) (s : State) : Result :=
  guardRegs [x] (.opFX29 x) s (.next (s.setIdx (glyphAddress (s.getV x))))

/-- `MemWrite(a, n, bs)` followed by the rest of an instruction: OutOfBounds(a, n) with no byte written when the write is
not allowed (20_memory.md R51, R52, R57). -/
def storeBytes (i : Instr) (a : Nat) (bs : List Byte) (s : State) (rest : State → State) : Result :=
  if mayWrite s.config a bs.length then .next (rest (s.setMem (s.mem.putAll a bs)))
  else raise .outOfBounds i (some (a, bs.length)) s

/-- `MemRead(a, n)` followed by the rest of an instruction: OutOfBounds(a, n) with nothing done when the range does not
exist (20_memory.md R51, R52). -/
def loadBytes (i : Instr) (a n : Nat) (s : State) (rest : List Byte → State) : Result :=
  match memRead s.mem a n with
  | some bs => .next (rest bs)
  | none => raise .outOfBounds i (some (a, n)) s

/-- FX33 (43_index_memory.md R173): the three decimal digits of `V[X]` at `I`, `I+1`, `I+2`. -/
def execFX33 (x : Nat) (s : State) : Result :=
  guardRegs [x] (.opFX33 x) s
    (storeBytes (.opFX33 x) s.idx.toNat (decimalDigits (s.getV x)) s (fun t => t))

/-- FX55 (43_index_memory.md R174): `V[0]` to `V[X]` at `I` onwards, then the quirk's increment of I. -/
def execFX55 (x : Nat) (s : State) : Result :=
  guardRegs [x] (.opFX55 x) s
    (storeBytes (.opFX55 x) s.idx.toNat (s.block 0 (x + 1)) s (fun t => t.stepIndex (x + 1)))

/-- FX65 (43_index_memory.md R175): `V[0]` to `V[X]` from `I` onwards, then the quirk's increment of I. -/
def execFX65 (x : Nat) (s : State) : Result :=
  guardRegs [x] (.opFX65 x) s
    (loadBytes (.opFX65 x) s.idx.toNat (x + 1) s (fun bs => (s.loadBlock 0 bs).stepIndex (x + 1)))

end Sys2Proof.Machine
end

