-- ==== Sys2Proof/Machine/Display.lean ====
section
/-! DEFINITION. The framebuffer compositor and the display instructions (40_display.md). -/

namespace Sys2Proof.Machine

/-- The pixel `FB[x][y]`; off outside the 64 x 32 grid. -/
def Framebuffer.pixel (f : Framebuffer) (x y : Nat) : Bool :=
  match f[y]? with
  | some row => row[x]?.getD false
  | none => false

/-- `FB[px][py] <- not FB[px][py]` (40_display.md R100). -/
def Framebuffer.toggle (f : Framebuffer) (px py : Nat) : Framebuffer :=
  match f[py]? with
  | some row => f.setIfInBounds py (row.setIfInBounds px (!f.pixel px py))
  | none => f

/-- The compositor's working data: the grid and `collided`. -/
structure Canvas where
  fb : Framebuffer
  collided : Bool
  deriving DecidableEq, Repr

/-- A set bit at `(px, py)`: clipped outside the grid, else collision and toggle (40_display.md R100 to R102). -/
def Canvas.hit (c : Canvas) (px py : Nat) : Canvas :=
  if px < 64 ∧ py < 32 then
    { fb := c.fb.toggle px py, collided := c.collided || c.fb.pixel px py }
  else c

/-- Bit `b` of a row, "bit 7 is column x0, bit 0 is column x0 + 7" (40_display.md R100): column offset `b` shows bit `7 - b`. -/
def Canvas.bit (c : Canvas) (row : Byte) (x0 py b : Nat) : Canvas :=
  if row.getLsbD (7 - b) then c.hit (x0 + b) py else c

/-- The eight bits of one row byte. -/
def Canvas.row (c : Canvas) (row : Byte) (x0 py : Nat) : Canvas :=
  [0, 1, 2, 3, 4, 5, 6, 7].foldl (fun c b => c.bit row x0 py b) c

/-- The rows of a sprite from row `py` down. -/
def Canvas.rows (c : Canvas) (x0 py : Nat) : List Byte → Canvas
  | [] => c
  | r :: rs => Canvas.rows (c.row r x0 py) x0 (py + 1) rs

/-- `drawSprite(x, y, rows)` on the grid (40_display.md R100): start at `(x mod 64, y mod 32)`, clip the rest. -/
def drawSprite (f : Framebuffer) (x y : Byte) (rows : List Byte) : Canvas :=
  Canvas.rows { fb := f, collided := false } (x.toNat % 64) (y.toNat % 32) rows

/-- 00E0 (40_display.md R104): every pixel off, one render request. -/
def exec00E0 (s : State) : Result :=
  .next (s.setFb Framebuffer.clear).emitRender

/-- DXYN after its rows have been read (40_display.md R105): draw, emit the render request, then VF. -/
def State.drawRows (s : State) (x y : Nat) (rows : List Byte) : State :=
  let c := drawSprite s.fb (s.getV x) (s.getV y) rows
  (s.setFb c.fb).emitRender.setV VF (collisionOf c.collided)

/-- DXYN (40_display.md R105): `MemRead(I, N)` first, OutOfBounds(I, N) with nothing drawn. -/
def execDXYN (x y n : Nat) (s : State) : Result :=
  guardRegs [x, y] (.opDXYN x y n) s
    (loadBytes (.opDXYN x y n) s.idx.toNat n s (fun rows => s.drawRows x y rows))

end Sys2Proof.Machine
end

