-- ==== Sys2Proof/Machine/Timer.lean ====
section
/-! DEFINITION. Delay-timer instructions (44_timer.md) and the timer's decrement (60_exceptions.md R222). -/

namespace Sys2Proof.Machine

/-- FX07 (44_timer.md R190): `V[X] <- DT`. -/
def execFX07 (x : Nat) (s : State) : Result :=
  guardRegs [x] (.opFX07 x) s (.next (s.setV x s.dt))

/-- FX15 (44_timer.md R191): `DT <- V[X]`; the scheduler's accumulators keep their values. -/
def execFX15 (x : Nat) (s : State) : Result :=
  guardRegs [x] (.opFX15 x) s (.next (s.setDt (s.getV x)))

/-- TimerDecay (60_exceptions.md R222): `if DT > 0: DT <- DT - 1`. -/
def State.timerDecay (s : State) : State :=
  if 0 < s.dt.toNat then s.setDt (s.dt - 1#8) else s

end Sys2Proof.Machine
end

