-- ==== Sys2Proof/Machine/Tick.lean ====
section
/-! DEFINITION. The four kinds of atomic step (60_exceptions.md R220), the choice of the next one (R220, R221), and the
ends of a run (R202, R224, R225, R232). -/

namespace Sys2Proof.Machine

/-! ## Tick (30_encoding.md R83) -/

/-- The fetch of 30_encoding.md R83: `MemRead16(pc)`; `none` is its OutOfBounds(pc, 2). -/
def fetch (s : State) : Option Word := memRead16 s.mem s.pc.toNat

/-- Decode and execute after the fetch, with the pc already advanced: a word without a row raises
UnimplementedInstruction "with no other effect" (30_encoding.md R85). -/
def runWord (w : Word) (s : State) : Result :=
  match decode w with
  | .ok i => exec i s
  | .error _ => raiseWith .unimplementedInstruction w none s

/-- One fetch-decode-execute cycle (30_encoding.md R83): fetch, "advance pc by 2 before executing", execute. -/
def tick (s : State) : Result :=
  match fetch s with
  | none => raiseFetch s
  | some w => runWord w s.advancePc

/-! ## The scheduler (60_exceptions.md R220, R221) -/

/-- The third while loop of 60_exceptions.md R221, after `accR <- accR + delta`: a Refresh, or the iteration is over. -/
def refreshLoop (c : Config) (acc : Accumulators) : Accumulators × Option (Action × Phase) :=
  if c.periodRefresh ≤ acc.accR then
    ({ acc with accR := acc.accR - c.periodRefresh }, some (.refresh, .refreshLoop))
  else (acc, none)

/-- The second while loop of 60_exceptions.md R221, after `accT <- accT + delta`: a TimerDecay, or on to the third. -/
def timerLoop (c : Config) (delta : Nat) (acc : Accumulators) : Accumulators × Option (Action × Phase) :=
  if c.periodTimer ≤ acc.accT then
    ({ acc with accT := acc.accT - c.periodTimer }, some (.timerDecay, .timerLoop))
  else refreshLoop c { acc with accR := acc.accR + delta }

/-- The first while loop of 60_exceptions.md R221, after `accC <- accC + delta`: a Tick, or on to the second. -/
def cpuLoop (c : Config) (delta : Nat) (acc : Accumulators) : Accumulators × Option (Action × Phase) :=
  if c.periodCpu ≤ acc.accC then
    ({ acc with accC := acc.accC - c.periodCpu }, some (.tick, .cpuLoop))
  else timerLoop c delta { acc with accT := acc.accT + delta }

/-- The reference scheduler inside an iteration (60_exceptions.md R221): the accumulators as it leaves them, and the next
step with the loop it belongs to, or none when the iteration is over. -/
def iterationStep (c : Config) (p : Phase) (delta : Nat) (acc : Accumulators) :
    Accumulators × Option (Action × Phase) :=
  match p with
  | .start => cpuLoop c delta { acc with accC := acc.accC + delta }
  | .cpuLoop => cpuLoop c delta acc
  | .timerLoop => timerLoop c delta acc
  | .refreshLoop => refreshLoop c acc

/-- The next atomic step of the turns, with the accumulators and the turns after it: a free turn is taken as it stands
(60_exceptions.md R220); an iteration of the reference scheduler gives its next step (R221) or, when it has none left,
gives way to the following turn; with no turn left the step is a Tick (DESIGN CHOICE, log 3). -/
def takeTurn (c : Config) : List Turn → Accumulators → Action × Accumulators × List Turn
  | [], acc => (.tick, acc, [])
  | .act a :: rest, acc => (a, acc, rest)
  | .iteration p delta :: rest, acc =>
    match iterationStep c p delta acc with
    | (acc', some (a, p')) => (a, acc', .iteration p' delta :: rest)
    | (acc', none) => takeTurn c rest acc'

/-- The scheduler's data after the next step of the turns, with the given stop input. -/
def Scheduler.afterTurn (c : Config) (d : Scheduler) (stopAfter : Option Nat) : Scheduler :=
  { acc := (takeTurn c d.agenda d.acc).2.1, agenda := (takeTurn c d.agenda d.acc).2.2, stopAfter := stopAfter }

/-- The next atomic step and the scheduler's data after choosing it: the host's Stop when its moment has come, wherever in
an iteration the scheduler stands ("may end the loop before any `Tick`", 60_exceptions.md R221, R225), keeping the other
data as they are (log 24); else the next step of the turns. -/
def choose (c : Config) (d : Scheduler) : Action × Scheduler :=
  match d.stopAfter with
  | some 0 => (.stop, { d with stopAfter := none })
  | some (k + 1) => ((takeTurn c d.agenda d.acc).1, d.afterTurn c (some k))
  | none => ((takeTurn c d.agenda d.acc).1, d.afterTurn c none)

/-- One atomic step of the given kind (60_exceptions.md R220): R83 and the instruction rules, R222, R223, R225. -/
def perform (a : Action) (s : State) : Result :=
  match a with
  | .tick => tick s
  | .timerDecay => .next s.timerDecay
  | .refresh => .next s.emitRender
  | .stop => .next s.setStopped

/-- The step of a run that has not ended: choose, then perform. -/
def runningStep (s : State) : Result :=
  perform (choose s.config s.sched).1 (s.setSched (choose s.config s.sched).2)

/-- One step of the block. A faulted or stopped block takes no step (60_exceptions.md R202, R225); a halted one emits
exactly one final render request and then takes none (R224); else the scheduler goes on (logs 5, 11, 17). -/
def stepOnce (s : State) : Result :=
  match s.fault with
  | some r => .fault (.runFaulted r)
  | none =>
    if s.stopped then .fault .runStopped
    else if s.halted then
      if s.finalRenderDone then .fault .runHalted
      else .next s.emitRender.setFinalRenderDone
    else runningStep s

end Sys2Proof.Machine
end

