-- ==== Sys2Proof/Machine/Step.lean ====
section
/-! DEFINITION. The step function, and the placing of one instruction where it fetches. -/

namespace Sys2Proof.Machine

/-- One step of the block (60_exceptions.md R220). -/
def step (s : State) : Host.Outcome State Fault Refusal := stepOnce s

/-- `s` with an instruction word stored at the pc, high byte first, and everything the very next step needs to fetch it:
a run that has not ended and scheduler's data whose next step is a Tick; a pc from which no word can be fetched is moved to 0x200
(log 19). -/
def State.withFetchWord (s : State) (nbits w : Nat) : State :=
  let pc := if s.pc.toNat + 1 ≤ 0xFFF then s.pc else 0x200#16
  { s with
    mem := (s.mem.put pc.toNat (highByte (tableWord nbits w))).put (pc.toNat + 1) (lowByte (tableWord nbits w))
    pc := pc
    halted := false
    fault := none
    stopped := false
    finalRenderDone := false
    sched := { s.sched with agenda := [], stopAfter := none } }

end Sys2Proof.Machine
end

