-- ==== Sys2Proof/Safety.lean ====
section
/-! DEFINITION. What counts as a safe run, in the terms the statements use: how a run ends (60_exceptions.md R232), the
invariant of every run, weak fairness (R220), and the frame predicates. -/

namespace Sys2Proof.Machine

/-! ## The end of a run (60_exceptions.md R232) -/

/-- The three ways a run ends. -/
inductive RunEnd where
  | halted
  | faulted
  | stopped
  deriving DecidableEq, Repr

/-- How the run has ended in a state, if it has. -/
def State.runEnd (s : State) : Option RunEnd :=
  if s.fault.isSome then some .faulted
  else if s.stopped then some .stopped
  else if s.halted then some .halted
  else none

/-- No end of the run has been reached: the states in which 60_exceptions.md R220 admits its four kinds of step. -/
abbrev State.Running (s : State) : Prop := s.fault = none ∧ s.stopped = false ∧ s.halted = false

/-- The kind of the next atomic step that the scheduler's data choose. -/
def State.nextAction (s : State) : Action := (choose s.config s.sched).1

/-- The state in which the chosen atomic step is performed: only the scheduler's data differ. -/
def State.afterChoice (s : State) : State := s.setSched (choose s.config s.sched).2

/-! ## The invariant -/

/-- What every step keeps. Each field follows from the rules it names; none is a premise of the step function. -/
structure Inv (s : State) : Prop where
  /-- Memory is in its canonical form. -/
  memory : s.mem.wf = true
  /-- "after a fetch `pc <= 0x1000` and after a skip `pc <= 0x1002`" (10_state.md R27). -/
  pcBound : s.pc.toNat ≤ 0x1002
  /-- "a popped value is a pushed `A + 2 <= 0x1000`" (10_state.md R27). -/
  stackBound : ∀ a ∈ s.stack, a.toNat ≤ 0x1000
  /-- The stack never outgrows a finite STACK_CAP (92_eei_decisions.md D3). -/
  stackCap : ∀ cap, s.config.stackCap = some cap → s.stack.length ≤ cap
  /-- `I` stays within 0..0xFFF except through GLYPH_OOR (10_state.md R24). -/
  indexBound : (∀ d : Byte, 0xF < d.toNat → (Config.glyphOor d).toNat ≤ 0xFFF) → s.idx.toNat ≤ 0xFFF
  /-- "A run ends in exactly one of three ways" (60_exceptions.md R232). -/
  oneEnd : (s.fault.isSome = true → s.halted = false ∧ s.stopped = false) ∧ (s.halted = true → s.stopped = false)
  /-- The final render belongs to the halt (60_exceptions.md R224). -/
  finalRender : s.finalRenderDone = true → s.halted = true

/-! ## Runs and fairness (60_exceptions.md R220) -/

/-- An infinite run of the block under a schedule: every step is performed and none of its states has ended. -/
def InfiniteRun (schedule : Nat → Action) (states : Nat → State) : Prop :=
  ∀ n, (states n).Running ∧ perform (schedule n) (states n) = .next (states (n + 1))

/-- "An infinite run is admitted only if it is weakly fair: `Tick`, `TimerDecay` and `Refresh` each occur infinitely
often" (60_exceptions.md R220, log 16). -/
def WeaklyFair (schedule : Nat → Action) : Prop :=
  ∀ n, (∃ m, n ≤ m ∧ schedule m = .tick) ∧ (∃ m, n ≤ m ∧ schedule m = .timerDecay) ∧
    (∃ m, n ≤ m ∧ schedule m = .refresh)

/-! ## Frames -/

/-- Only the registers listed in `rs` may differ: every other register and every other part of the state, each byte of
memory among them, is as before. -/
def OnlyRegs (rs : List Nat) (s t : State) : Prop :=
  t = { s with v := t.v } ∧ (∀ r, r < 16 → r ∉ rs → t.getV r = s.getV r) ∧ ∀ a, t.mem.get a = s.mem.get a

/-- Only the registers listed in `rs` and the index register may differ. -/
def OnlyRegsAndIndex (rs : List Nat) (s t : State) : Prop :=
  t = { s with v := t.v, idx := t.idx } ∧ (∀ r, r < 16 → r ∉ rs → t.getV r = s.getV r) ∧
    ∀ a, t.mem.get a = s.mem.get a

/-- Only memory and the index register may differ, and memory only in the `n` bytes from `a` on. -/
def OnlyBytesAndIndex (a n : Nat) (s t : State) : Prop :=
  t = { s with mem := t.mem, idx := t.idx } ∧ ∀ b, (b < a ∨ a + n ≤ b) → t.mem.get b = s.mem.get b

/-- A fault has been entered and nothing else has changed (60_exceptions.md R205). -/
def OnlyFault (r : FaultRecord) (s t : State) : Prop := t = { s with fault := some r }

end Sys2Proof.Machine
end

