-- ==== Sys2Proof/Certificates/Slice0/Obligations.lean ====
section
/-! DEFINITION. The statements for the provers. Each docstring names the rule of spec/ it formalises; where a clause rests
on a decision the spec marks as its own (92_eei_decisions.md) or on an entry of the model's log, it says so. -/

/-! ## Vocabulary of the statements -/

namespace Sys2Proof.Claims

open Sys2Proof Sys2Proof.Machine

/-- The encoding line of an instruction rule: the word has the row's fixed bits and decodes back to the instruction. -/
def Encoded (i : Instr) (mask bits : Word) : Prop := encode i &&& mask = bits ∧ decode (encode i) = .ok i

/-- The fault record of an instruction at the state after its fetch (60_exceptions.md R201). -/
def record (k : FaultKind) (i : Instr) (access : Option (Nat × Nat)) (s : State) : FaultRecord :=
  { kind := k, addr := s.pc - 2#16, word := some (encode i), access := access }

/-- The illegal words as 30_encoding.md R85 lists them, nibble by nibble. -/
def IllegalWord (w : Word) : Prop :=
  let f := w.toNat / 0x1000
  let n := w.toNat % 0x10
  let nn := w.toNat % 0x100
  (f = 0x0 ∧ w ≠ 0x00E0#16 ∧ w ≠ 0x00EE#16) ∨
  ((f = 0x5 ∨ f = 0x9) ∧ n ≠ 0) ∨
  (f = 0x8 ∧ n ∈ [0x8, 0x9, 0xA, 0xB, 0xC, 0xD, 0xF]) ∨
  (f = 0xB ∨ f = 0xE) ∨
  (f = 0xF ∧ nn ∉ [0x07, 0x15, 0x1E, 0x29, 0x33, 0x55, 0x65])

/-- The sprite bit that lands on the pixel `(p, q)`: a sprite of `n` rows, the `k`-th row byte `row k`, starting at column
`x mod 64` and row `y mod 32`, most significant bit leftmost (40_display.md R100, R101). -/
def spriteBit (x y : Byte) (n : Nat) (row : Nat → Byte) (p q : Nat) : Bool :=
  decide (x.toNat % 64 ≤ p) && decide (p < x.toNat % 64 + 8) && decide (y.toNat % 32 ≤ q) &&
    decide (q < y.toNat % 32 + n) && (row (q - y.toNat % 32)).getLsbD (7 - (p - x.toNat % 64))

/-- The byte at `b` once the bytes `row 0`, `row 1`, ... have been stored in the `n` bytes from `a` on. -/
def storedByte (m : Memory) (a n : Nat) (row : Nat → Byte) (b : Nat) : Byte :=
  if a ≤ b ∧ b < a + n then row (b - a) else m.get b

/-- The register indices an instruction accesses (10_state.md R22); a shift reads `Y` only under quirk shiftLoadsY. -/
def regsUsed (c : Config) : Instr → List Nat
  | .op00E0 => []
  | .op00EE => []
  | .op1NNN _ => []
  | .op2NNN _ => []
  | .op3XNN x _ => [x]
  | .op4XNN x _ => [x]
  | .op5XY0 x y => [x, y]
  | .op6XNN x _ => [x]
  | .op7XNN x _ => [x]
  | .op8XY0 x y => [x, y]
  | .op8XY1 x y => [x, y]
  | .op8XY2 x y => [x, y]
  | .op8XY3 x y => [x, y]
  | .op8XY4 x y => [x, y]
  | .op8XY5 x y => [x, y]
  | .op8XY6 x y => if c.shiftLoadsY then [x, y] else [x]
  | .op8XY7 x y => [x, y]
  | .op8XYE x y => if c.shiftLoadsY then [x, y] else [x]
  | .op9XY0 x y => [x, y]
  | .opANNN _ => []
  | .opCXNN x _ => [x]
  | .opDXYN x y _ => [x, y]
  | .opFX07 x => [x]
  | .opFX15 x => [x]
  | .opFX1E x => [x]
  | .opFX29 x => [x]
  | .opFX33 x => [x]
  | .opFX55 x => [x]
  | .opFX65 x => [x]

/-- The rows of 60_exceptions.md R203: the fault kinds an instruction can raise. -/
def faultsOf : Instr → List FaultKind
  | .op00EE => [.stackUnderflow]
  | .op2NNN _ => [.stackOverflow]
  | .opDXYN _ _ _ => [.outOfBounds]
  | .opFX33 _ => [.outOfBounds]
  | .opFX55 _ => [.outOfBounds]
  | .opFX65 _ => [.outOfBounds]
  | _ => []

/-- The instructions that write VF as a flag (10_state.md R21); FX1E only under quirk indexOverflowFlag. -/
def writesFlag (c : Config) : Instr → Bool
  | .op8XY4 _ _ => true
  | .op8XY5 _ _ => true
  | .op8XY6 _ _ => true
  | .op8XY7 _ _ => true
  | .op8XYE _ _ => true
  | .opDXYN _ _ _ => true
  | .opFX1E _ => c.indexOverflowFlag
  | _ => false

/-- The instructions with VF as their ordinary destination (10_state.md R21): `X` = 0xF of an instruction that writes
`V[X]`, or FX65 with `X` = 0xF. -/
def vfIsDestination : Instr → Bool
  | .op6XNN x _ => x == 15
  | .op7XNN x _ => x == 15
  | .op8XY0 x _ => x == 15
  | .op8XY1 x _ => x == 15
  | .op8XY2 x _ => x == 15
  | .op8XY3 x _ => x == 15
  | .opCXNN x _ => x == 15
  | .opFX07 x => x == 15
  | .opFX65 x => x == 15
  | _ => false

/-- A tick of a running state that draws or clears without a fault emits a render request (40_display.md R103). -/
def drawsOrClears : Instr → Bool
  | .op00E0 => true
  | .opDXYN _ _ _ => true
  | _ => false

/-- A finite sequence of atomic steps performed one after another, each from a state in which the run has not ended
(60_exceptions.md R220). -/
def PerformedInOrder : List Action → State → State → Prop
  | [], s, t => s = t
  | a :: as, s, t => s.Running ∧ ∃ u, perform a s = .next u ∧ PerformedInOrder as u t

/-- The next `n` choices of a scheduler, and its data after them. -/
def choices (c : Config) : Nat → Scheduler → List Action × Scheduler
  | 0, d => ([], d)
  | n + 1, d =>
    ((choose c d).1 :: (choices c n (choose c d).2).1, (choices c n (choose c d).2).2)

/-- `k` TimerDecay steps. -/
def decays : Nat → State → State
  | 0, s => s
  | k + 1, s => decays k s.timerDecay

end Sys2Proof.Claims

open Sys2Proof Sys2Proof.Machine Sys2Proof.Claims

/-! ## Encoding -/

/-- 30_encoding.md R80, R81, R82: every operand of every well-formed instruction survives encoding and decoding. -/
def Obligations.DecodeOfEncodeIsInstruction : Prop :=
  ∀ i : Instr, i.wf = true → decode (encode i) = .ok i

/-- 30_encoding.md R81, R82: a decoded instruction is well-formed and encodes to the very word it came from, so each word
has one meaning and no bit of it is dropped. -/
def Obligations.EncodeOfDecodeIsWord : Prop :=
  ∀ (w : Word) (i : Instr), decode w = .ok i → i.wf = true ∧ encode i = w

/-- 30_encoding.md R81 (the masks of families 0, 5, 9 and F are the spec's reading, log 15): the table has 29 rows, no word
selects two, a word decodes exactly if it selects a row, and then to an instruction of that row. -/
def Obligations.WordDecodesThroughItsOneRow : Prop :=
  opcodeTable.length = 29 ∧
  (∀ (w : Word) (r r' : Row), r ∈ opcodeTable → r' ∈ opcodeTable → r.selects w = true → r'.selects w = true → r = r') ∧
  (∀ w : Word, (∃ i, decode w = .ok i) ↔ ∃ r ∈ opcodeTable, r.selects w = true) ∧
  (∀ (w : Word) (i : Instr), decode w = .ok i → i.row ∈ opcodeTable ∧ i.row.selects w = true)

/-- 30_encoding.md R85 (with the spec's decisions D7, D8 and D9, log 15): exactly the listed words decode to nothing, and
fetching one raises UnimplementedInstruction with the word and its address and no other effect but the pc's advance. -/
def Obligations.IllegalWordRaisesUnimplemented : Prop :=
  (∀ w : Word, IllegalWord w ↔ ∀ i, decode w ≠ .ok i) ∧
  (∀ (s : State) (w : Word), s.Running → s.nextAction = .tick → fetch s = some w → IllegalWord w →
    step s = .next { s with
      sched := s.afterChoice.sched
      pc := s.pc + 2#16
      fault := some { kind := .unimplementedInstruction, addr := s.pc, word := some w, access := none } })

/-- 30_encoding.md R81: words written out from the encodings of each family (the high nibble of the word, 00_scope.md R12)
decode to the instruction they stand for; families B and E have no instruction. -/
def Obligations.WordsOfEachFamilyDecode : Prop :=
  decode 0x00E0#16 = .ok .op00E0 ∧ decode 0x00EE#16 = .ok .op00EE ∧ decode 0x1ABC#16 = .ok (.op1NNN 0xABC#12) ∧
  decode 0x2ABC#16 = .ok (.op2NNN 0xABC#12) ∧ decode 0x3A5C#16 = .ok (.op3XNN 0xA 0x5C#8) ∧
  decode 0x4A5C#16 = .ok (.op4XNN 0xA 0x5C#8) ∧ decode 0x5AB0#16 = .ok (.op5XY0 0xA 0xB) ∧
  decode 0x6A7B#16 = .ok (.op6XNN 0xA 0x7B#8) ∧ decode 0x7A7B#16 = .ok (.op7XNN 0xA 0x7B#8) ∧
  decode 0x8AB7#16 = .ok (.op8XY7 0xA 0xB) ∧ decode 0x9AB0#16 = .ok (.op9XY0 0xA 0xB) ∧
  decode 0xA300#16 = .ok (.opANNN 0x300#12) ∧ decode 0xC10F#16 = .ok (.opCXNN 1 0x0F#8) ∧
  decode 0xDAB7#16 = .ok (.opDXYN 0xA 0xB 7) ∧ decode 0xF315#16 = .ok (.opFX15 3) ∧ decode 0xFA65#16 = .ok (.opFX65 0xA)

/-! ## Fetch and step -/

/-- 30_encoding.md R83, 60_exceptions.md R220: when the run has not ended, the next atomic step is a Tick and the two bytes at
the pc decode, a step is the instruction's meaning at the state with the pc advanced by 2 and the scheduler's choice taken;
with no turn on the agenda and no stop to come the next step is a Tick and the scheduler's data stay (DESIGN CHOICE,
log 3). -/
def Obligations.StepRunsDecodedInstruction : Prop :=
  (∀ (s : State) (i : Instr), s.Running → s.nextAction = .tick → s.pc.toNat + 1 ≤ 0xFFF →
    decode (s.mem.get s.pc.toNat ++ s.mem.get (s.pc.toNat + 1)) = .ok i →
    step s = exec i { s with sched := s.afterChoice.sched, pc := s.pc + 2#16 }) ∧
  (∀ s : State, s.sched.agenda = [] → s.sched.stopAfter = none → s.nextAction = .tick ∧ s.afterChoice = s)

/-- 30_encoding.md R83 with the record of 60_exceptions.md R201 (the spec's decision D6): a fetch that would pass 0xFFF raises
OutOfBounds(pc, 2) without a word; the pc and everything but the scheduler's data are unchanged. -/
def Obligations.FetchPastMemoryFaults : Prop :=
  ∀ s : State, s.Running → s.nextAction = .tick → 0xFFF < s.pc.toNat + 1 →
    step s = .next { s with
      sched := s.afterChoice.sched
      fault := some { kind := .outOfBounds, addr := s.pc, word := none, access := some (s.pc.toNat, 2) } }

/-- 20_memory.md R60: `MemRead16` is the two bytes of `MemRead(a, 2)` joined, the first one high, and it faults where
`MemRead` does. -/
def Obligations.WordReadJoinsTwoBytes : Prop :=
  ∀ (m : Memory) (a : Nat),
    (∀ hi lo : Byte, memRead m a 2 = some [hi, lo] →
      ∃ w, memRead16 m a = some w ∧ w.toNat = 256 * hi.toNat + lo.toNat) ∧
    (memRead m a 2 = none → memRead16 m a = none) ∧
    (∀ bs, memRead m a 2 = some bs → bs.length = 2)

/-- 20_memory.md R51, with the empty range read literally (the spec's decision D17): `MemRead` fails exactly outside
[0, 4095], and else delivers the bytes in address order. -/
def Obligations.MemoryReadChecksWholeRange : Prop :=
  ∀ (m : Memory) (a n : Nat),
    (memRead m a n = none ↔ 0xFFF < a ∨ a + n = 0 ∨ 0x1000 < a + n) ∧
    (∀ bs, memRead m a n = some bs → bs.length = n ∧ ∀ k, k < n → bs[k]? = some (m.get (a + k)))

/-! ## Registers and arithmetic (42_alu.md) -/

/-- 42_alu.md R141, R142: 6XNN loads the immediate; 7XNN adds it modulo 256 with no flag; nothing else changes. -/
def Obligations.ImmediateLoadAndAdd : Prop :=
  ∀ (x : Nat) (nn : Byte) (s : State), x < 16 →
    (Encoded (.op6XNN x nn) 0xF000#16 0x6000#16 ∧
      ∃ t, exec (.op6XNN x nn) s = .next t ∧ t.getV x = nn ∧ OnlyRegs [x] s t) ∧
    (Encoded (.op7XNN x nn) 0xF000#16 0x7000#16 ∧
      ∃ t, exec (.op7XNN x nn) s = .next t ∧ (t.getV x).toNat = ((s.getV x).toNat + nn.toNat) % 256 ∧ OnlyRegs [x] s t)

/-- 42_alu.md R143 to R146: move, OR, AND, XOR into `V[X]`, with no flag; nothing else changes. -/
def Obligations.MoveAndLogicWriteOnlyDestination : Prop :=
  ∀ (x y : Nat) (s : State), x < 16 → y < 16 →
    (Encoded (.op8XY0 x y) 0xF00F#16 0x8000#16 ∧
      ∃ t, exec (.op8XY0 x y) s = .next t ∧ t.getV x = s.getV y ∧ OnlyRegs [x] s t) ∧
    (Encoded (.op8XY1 x y) 0xF00F#16 0x8001#16 ∧
      ∃ t, exec (.op8XY1 x y) s = .next t ∧ t.getV x = s.getV x ||| s.getV y ∧ OnlyRegs [x] s t) ∧
    (Encoded (.op8XY2 x y) 0xF00F#16 0x8002#16 ∧
      ∃ t, exec (.op8XY2 x y) s = .next t ∧ t.getV x = s.getV x &&& s.getV y ∧ OnlyRegs [x] s t) ∧
    (Encoded (.op8XY3 x y) 0xF00F#16 0x8003#16 ∧
      ∃ t, exec (.op8XY3 x y) s = .next t ∧ t.getV x = s.getV x ^^^ s.getV y ∧ OnlyRegs [x] s t)

/-- 42_alu.md R147: the carry of the exact sum goes to VF first, then the sum modulo 256, read with the new VF, to `V[X]`.
The cases with VF as an operand follow the order of the rule's statements (93_implementation_defined.md U6, log 13). -/
def Obligations.AddWritesCarryThenSum : Prop :=
  ∀ (x y : Nat) (s : State), x < 16 → y < 16 →
    let a := (s.getV x).toNat
    let b := (s.getV y).toNat
    let c := if 255 < a + b then 1 else 0
    Encoded (.op8XY4 x y) 0xF00F#16 0x8004#16 ∧
    ∃ t, exec (.op8XY4 x y) s = .next t ∧ OnlyRegs [x, 15] s t ∧
      (x ≠ 15 → (t.getV 15).toNat = c) ∧
      (x ≠ 15 → y ≠ 15 → (t.getV x).toNat = (a + b) % 256) ∧
      (x ≠ 15 → y = 15 → (t.getV x).toNat = (a + c) % 256) ∧
      (x = 15 → y ≠ 15 → (t.getV 15).toNat = (c + b) % 256) ∧
      (x = 15 → y = 15 → (t.getV 15).toNat = 2 * c)

/-- 42_alu.md R148, R150: the no-borrow of the exact operands goes to VF first, then the difference modulo 256, read with
the new VF, to `V[X]`. The cases with VF as an operand follow the order of the rules' statements
(93_implementation_defined.md U6, log 13). -/
def Obligations.SubtractWritesNoBorrowThenDifference : Prop :=
  ∀ (x y : Nat) (s : State), x < 16 → y < 16 →
    let a := (s.getV x).toNat
    let b := (s.getV y).toNat
    let f := if b ≤ a then 1 else 0
    let g := if a ≤ b then 1 else 0
    (Encoded (.op8XY5 x y) 0xF00F#16 0x8005#16 ∧
    ∃ t, exec (.op8XY5 x y) s = .next t ∧ OnlyRegs [x, 15] s t ∧
      (x ≠ 15 → (t.getV 15).toNat = f) ∧
      (x ≠ 15 → y ≠ 15 → (t.getV x).toNat = (256 + a - b) % 256) ∧
      (x ≠ 15 → y = 15 → (t.getV x).toNat = (256 + a - f) % 256) ∧
      (x = 15 → y ≠ 15 → (t.getV 15).toNat = (256 + f - b) % 256) ∧
      (x = 15 → y = 15 → (t.getV 15).toNat = 0)) ∧
    (Encoded (.op8XY7 x y) 0xF00F#16 0x8007#16 ∧
    ∃ t, exec (.op8XY7 x y) s = .next t ∧ OnlyRegs [x, 15] s t ∧
      (x ≠ 15 → (t.getV 15).toNat = g) ∧
      (x ≠ 15 → y ≠ 15 → (t.getV x).toNat = (256 + b - a) % 256) ∧
      (x ≠ 15 → y = 15 → (t.getV x).toNat = (256 + g - a) % 256) ∧
      (x = 15 → y ≠ 15 → (t.getV 15).toNat = (256 + b - g) % 256) ∧
      (x = 15 → y = 15 → (t.getV 15).toNat = 0))

/-- 42_alu.md R149, R151: under quirk shiftLoadsY `V[Y]` is shifted, else `V[X]`; the bit shifted out goes to VF first, then
the shifted value to `V[X]`, which for `X = F` is the shifted bit. -/
def Obligations.ShiftWritesBitThenShifted : Prop :=
  ∀ (x y : Nat) (s : State), x < 16 → y < 16 →
    let v := if s.config.shiftLoadsY then (s.getV y).toNat else (s.getV x).toNat
    (Encoded (.op8XY6 x y) 0xF00F#16 0x8006#16 ∧
    ∃ t, exec (.op8XY6 x y) s = .next t ∧ OnlyRegs [x, 15] s t ∧
      (x ≠ 15 → (t.getV x).toNat = v / 2 ∧ (t.getV 15).toNat = v % 2) ∧
      (x = 15 → (t.getV 15).toNat = 0)) ∧
    (Encoded (.op8XYE x y) 0xF00F#16 0x800E#16 ∧
    ∃ t, exec (.op8XYE x y) s = .next t ∧ OnlyRegs [x, 15] s t ∧
      (x ≠ 15 → (t.getV x).toNat = (2 * v) % 256 ∧ (t.getV 15).toNat = v / 128) ∧
      (x = 15 → (t.getV 15).toNat = 2 * (v / 128)))

/-- 42_alu.md R155 with the random source as log 2 models it: exactly one byte is drawn, the harness's next one if it
injected any and else the free value of the host's generator, and `V[X]` gets it masked; only bits of NN can be set. -/
def Obligations.RandomDrawsOneByteAndMasks : Prop :=
  ∀ (x : Nat) (nn : Byte) (s : State), x < 16 →
    Encoded (.opCXNN x nn) 0xF000#16 0xC000#16 ∧
    ∃ t, exec (.opCXNN x nn) s = .next t ∧ OnlyRegs [x] { s with rng := t.rng } t ∧
      t.rng.seed = s.rng.seed ∧ t.rng.drawn = s.rng.drawn + 1 ∧
      t.getV x &&& ~~~nn = 0#8 ∧
      (∀ b rest, s.rng.injected = b :: rest → t.getV x = b &&& nn ∧ t.rng.injected = rest) ∧
      (s.rng.injected = [] → t.getV x = Config.randomByte s.rng.seed s.rng.drawn &&& nn ∧ t.rng.injected = [])

/-! ## Control transfer (41_control_flow.md) -/

/-- 41_control_flow.md R121, R122 (HALT_ON_SELF_JUMP is the spec's decision D18): 1NNN sets the pc to NNN, halts exactly
when it jumps to its own address with HALT_ON_SELF_JUMP on, and changes nothing else. -/
def Obligations.JumpSetsPcAndHaltsOnItself : Prop :=
  ∀ (nnn : Addr12) (s : State),
    Encoded (.op1NNN nnn) 0xF000#16 0x1000#16 ∧
    ∃ t, exec (.op1NNN nnn) s = .next t ∧ t.pc.toNat = nnn.toNat ∧
      (t.halted = true ↔ s.halted = true ∨ (s.config.haltOnSelfJump = true ∧ (s.pc - 2#16).toNat = nnn.toNat)) ∧
      t = { s with pc := t.pc, halted := t.halted }

/-- 41_control_flow.md R123 (STACK_CAP and its StackOverflow are the spec's decision D3, log 18): 2NNN pushes the pc after
the fetch and sets the pc to NNN; on a full stack of finite capacity it raises StackOverflow and pushes nothing. -/
def Obligations.CallPushesReturnAddress : Prop :=
  ∀ (nnn : Addr12) (s : State),
    Encoded (.op2NNN nnn) 0xF000#16 0x2000#16 ∧
    ((∀ cap, s.config.stackCap = some cap → s.stack.length < cap) →
      exec (.op2NNN nnn) s = .next { s with stack := s.pc :: s.stack, pc := nnn.setWidth 16 }) ∧
    ((∃ cap, s.config.stackCap = some cap ∧ cap ≤ s.stack.length) →
      exec (.op2NNN nnn) s = .next { s with fault := some (record .stackOverflow (.op2NNN nnn) none s) })

/-- 41_control_flow.md R120 (StackUnderflow is the spec's decision D4): 00EE pops the most recent entry into the pc; on an
empty stack it raises StackUnderflow and changes nothing else. -/
def Obligations.ReturnPopsIntoPc : Prop :=
  Encoded .op00EE 0xFFFF#16 0x00EE#16 ∧
  (∀ (s : State) (w : Word) (rest : List Word), s.stack = w :: rest →
    exec .op00EE s = .next { s with stack := rest, pc := w }) ∧
  (∀ s : State, s.stack = [] →
    exec .op00EE s = .next { s with fault := some (record .stackUnderflow .op00EE none s) })

/-- The call and return round trip quoted in 41_control_flow.md R120, whatever ran in between as long as it left the stack as
the call did: the return restores the pc after the call's fetch and the stack before the call. -/
def Obligations.ReturnUndoesCall : Prop :=
  ∀ (nnn : Addr12) (s : State), (∀ cap, s.config.stackCap = some cap → s.stack.length < cap) →
    ∃ t, exec (.op2NNN nnn) s = .next t ∧
      ∀ u : State, u.stack = t.stack → exec .op00EE u = .next { u with stack := s.stack, pc := s.pc }

/-- 41_control_flow.md R124 to R127: each skip adds 2 to the pc exactly when its condition holds and changes nothing else. -/
def Obligations.SkipsAddTwoWhenTrue : Prop :=
  ∀ (x y : Nat) (nn : Byte) (s : State), x < 16 → y < 16 →
    (Encoded (.op3XNN x nn) 0xF000#16 0x3000#16 ∧
      exec (.op3XNN x nn) s = .next { s with pc := if s.getV x = nn then s.pc + 2#16 else s.pc }) ∧
    (Encoded (.op4XNN x nn) 0xF000#16 0x4000#16 ∧
      exec (.op4XNN x nn) s = .next { s with pc := if s.getV x = nn then s.pc else s.pc + 2#16 }) ∧
    (Encoded (.op5XY0 x y) 0xF00F#16 0x5000#16 ∧
      exec (.op5XY0 x y) s = .next { s with pc := if s.getV x = s.getV y then s.pc + 2#16 else s.pc }) ∧
    (Encoded (.op9XY0 x y) 0xF00F#16 0x9000#16 ∧
      exec (.op9XY0 x y) s = .next { s with pc := if s.getV x = s.getV y then s.pc else s.pc + 2#16 })

/-! ## Index register and memory (43_index_memory.md) -/

/-- 43_index_memory.md R170: ANNN sets I to NNN and changes nothing else. -/
def Obligations.LoadIndexSetsIndex : Prop :=
  ∀ (nnn : Addr12) (s : State),
    Encoded (.opANNN nnn) 0xF000#16 0xA000#16 ∧
    ∃ t, exec (.opANNN nnn) s = .next t ∧ t.idx.toNat = nnn.toNat ∧ t = { s with idx := t.idx }

/-- 43_index_memory.md R171: I gets the sum modulo 0x1000; under quirk indexOverflowFlag VF first gets whether the exact sum
passes 0xFFF, so with `X = F` the sum is read with the new VF; without the quirk no register changes. -/
def Obligations.AddIndexWrapsAndFlags : Prop :=
  ∀ (x : Nat) (s : State), x < 16 →
    let v := (s.getV x).toNat
    let c := if 0xFFF < s.idx.toNat + v then 1 else 0
    Encoded (.opFX1E x) 0xF0FF#16 0xF01E#16 ∧
    ∃ t, exec (.opFX1E x) s = .next t ∧
      (s.config.indexOverflowFlag = true → (t.getV 15).toNat = c ∧ OnlyRegsAndIndex [15] s t ∧
        (x ≠ 15 → t.idx.toNat = (s.idx.toNat + v) % 0x1000) ∧ (x = 15 → t.idx.toNat = (s.idx.toNat + c) % 0x1000)) ∧
      (s.config.indexOverflowFlag = false → t.idx.toNat = (s.idx.toNat + v) % 0x1000 ∧ OnlyRegsAndIndex [] s t)

/-- 43_index_memory.md R172: FX29 sets I to `0x050 + 5 * d` for a digit up to 0xF and to the OPEN GLYPH_OOR (the spec's
decision D14) above, a free value whose form is the model's DESIGN CHOICE (log 1), and changes nothing else. -/
def Obligations.GlyphAddressSetsIndex : Prop :=
  ∀ (x : Nat) (s : State), x < 16 →
    Encoded (.opFX29 x) 0xF0FF#16 0xF029#16 ∧
    ∃ t, exec (.opFX29 x) s = .next t ∧ t = { s with idx := t.idx } ∧
      ((s.getV x).toNat ≤ 0xF → t.idx.toNat = 0x050 + 5 * (s.getV x).toNat) ∧
      (0xF < (s.getV x).toNat → t.idx = Config.glyphOor (s.getV x))

/-- 43_index_memory.md R173 (the whole range checked first and FONT_PROTECT are the spec's decisions D15 and D13): FX33 stores
the hundreds, tens and ones digits of `V[X]` at I, I+1, I+2 and leaves every other byte, register and I; where the three bytes
do not fit, or meet the font region under FONT_PROTECT, it raises OutOfBounds(I, 3) and changes nothing else. -/
def Obligations.DecimalDigitsAreStored : Prop :=
  ∀ (x : Nat) (s : State), x < 16 → s.mem.wf = true →
    let a := s.idx.toNat
    let v := (s.getV x).toNat
    Encoded (.opFX33 x) 0xF0FF#16 0xF033#16 ∧
    (a + 2 ≤ 0xFFF → (s.config.fontProtect = true → a + 2 < 0x050 ∨ 0x09F < a) →
      ∃ t, exec (.opFX33 x) s = .next t ∧ OnlyBytesAndIndex a 3 s t ∧ t.idx = s.idx ∧
        (t.mem.get a).toNat = v / 100 ∧ (t.mem.get (a + 1)).toNat = v / 10 % 10 ∧ (t.mem.get (a + 2)).toNat = v % 10) ∧
    ((0xFFF < a + 2 ∨ (s.config.fontProtect = true ∧ 0x050 ≤ a + 2 ∧ a ≤ 0x09F)) →
      exec (.opFX33 x) s = .next { s with fault := some (record .outOfBounds (.opFX33 x) (some (a, 3)) s) })

/-- 43_index_memory.md R174 (address `I + r` in both quirk settings is 90_conflicts.md C3; D13, D15 and D16 are the spec's
decisions): FX55 stores `V[r]` at `I + r` for `r` up to X, leaves every other byte and every register, and advances I by
X + 1 modulo 0x1000 only under quirk storeLoadIncrementsIndex; where the range is not allowed it raises OutOfBounds(I, X+1)
and changes nothing else. -/
def Obligations.RegisterDumpStoresBlock : Prop :=
  ∀ (x : Nat) (s : State), x < 16 → s.mem.wf = true →
    let a := s.idx.toNat
    Encoded (.opFX55 x) 0xF0FF#16 0xF055#16 ∧
    (a + x ≤ 0xFFF → (s.config.fontProtect = true → a + x < 0x050 ∨ 0x09F < a) →
      ∃ t, exec (.opFX55 x) s = .next t ∧ OnlyBytesAndIndex a (x + 1) s t ∧
        (∀ r, r ≤ x → t.mem.get (a + r) = s.getV r) ∧
        (s.config.storeLoadIncrementsIndex = true → t.idx.toNat = (a + x + 1) % 0x1000) ∧
        (s.config.storeLoadIncrementsIndex = false → t.idx = s.idx)) ∧
    ((0xFFF < a + x ∨ (s.config.fontProtect = true ∧ 0x050 ≤ a + x ∧ a ≤ 0x09F)) →
      exec (.opFX55 x) s = .next { s with fault := some (record .outOfBounds (.opFX55 x) (some (a, x + 1)) s) })

/-- 43_index_memory.md R175 (address `I + r` is 90_conflicts.md C3; D15 and D16 are the spec's decisions): FX65 loads `V[r]`
from `I + r` for `r` up to X, leaves the registers above X and all memory, and advances I only under the quirk; where the
range does not exist it raises OutOfBounds(I, X+1) and changes nothing else. -/
def Obligations.RegisterLoadReadsBlock : Prop :=
  ∀ (x : Nat) (s : State), x < 16 →
    let a := s.idx.toNat
    Encoded (.opFX65 x) 0xF0FF#16 0xF065#16 ∧
    (a + x ≤ 0xFFF →
      ∃ t, exec (.opFX65 x) s = .next t ∧ OnlyRegsAndIndex (List.range (x + 1)) s t ∧
        (∀ r, r ≤ x → t.getV r = s.mem.get (a + r)) ∧
        (s.config.storeLoadIncrementsIndex = true → t.idx.toNat = (a + x + 1) % 0x1000) ∧
        (s.config.storeLoadIncrementsIndex = false → t.idx = s.idx)) ∧
    (0xFFF < a + x →
      exec (.opFX65 x) s = .next { s with fault := some (record .outOfBounds (.opFX65 x) (some (a, x + 1)) s) })

/-- The round trip quoted in 43_index_memory.md R175: a dump, then a load with the same X and I from the memory the dump left,
whatever the registers hold by then, gives V0 to VX their values at the dump and leaves the registers above X. -/
def Obligations.DumpThenLoadRestoresRegisters : Prop :=
  ∀ (x : Nat) (s : State), x < 16 → s.mem.wf = true → s.idx.toNat + x ≤ 0xFFF → s.config.fontProtect = false →
    ∃ t, exec (.opFX55 x) s = .next t ∧
      ∀ u : State, u.mem = t.mem → u.idx = s.idx →
        ∃ u', exec (.opFX65 x) u = .next u' ∧ (∀ r, r ≤ x → u'.getV r = s.getV r) ∧
          (∀ r, x < r → u'.getV r = u.getV r) ∧ u'.mem = t.mem

/-- 20_memory.md R68, 70_reset_and_hazards.md R246 (derived by the spec from R65 and R83; FONT_PROTECT is its decision D13):
after an FX33 or FX55 that stores, the fetch of every address reads the bytes as the store left them, the digits or the
registers in the stored range and the old bytes outside it, whole words and words half in the range alike. -/
def Obligations.StoredWordIsFetched : Prop :=
  ∀ (x p : Nat) (s : State), x < 16 → s.mem.wf = true → p + 1 ≤ 0xFFF →
    let a := s.idx.toNat
    let v := (s.getV x).toNat
    let digit := fun k => BitVec.ofNat 8 (if k = 0 then v / 100 else if k = 1 then v / 10 % 10 else v % 10)
    (a + 2 ≤ 0xFFF → (s.config.fontProtect = true → a + 2 < 0x050 ∨ 0x09F < a) →
      ∃ t, exec (.opFX33 x) s = .next t ∧
        fetch { t with pc := BitVec.ofNat 16 p } =
          some (storedByte s.mem a 3 digit p ++ storedByte s.mem a 3 digit (p + 1))) ∧
    (a + x ≤ 0xFFF → (s.config.fontProtect = true → a + x < 0x050 ∨ 0x09F < a) →
      ∃ t, exec (.opFX55 x) s = .next t ∧
        fetch { t with pc := BitVec.ofNat 16 p } =
          some (storedByte s.mem a (x + 1) s.getV p ++ storedByte s.mem a (x + 1) s.getV (p + 1)))

/-! ## Delay timer (44_timer.md, 60_exceptions.md R222) -/

/-- 44_timer.md R190: FX07 loads the delay timer into `V[X]` and changes nothing else. -/
def Obligations.ReadTimerLoadsRegister : Prop :=
  ∀ (x : Nat) (s : State), x < 16 →
    Encoded (.opFX07 x) 0xF0FF#16 0xF007#16 ∧
    ∃ t, exec (.opFX07 x) s = .next t ∧ t.getV x = s.dt ∧ OnlyRegs [x] s t

/-- 44_timer.md R191 (that the scheduler's accumulators stay is the spec's decision D26): FX15 sets the delay timer to `V[X]`
and changes nothing else. -/
def Obligations.SetTimerChangesOnlyTimer : Prop :=
  ∀ (x : Nat) (s : State), x < 16 →
    Encoded (.opFX15 x) 0xF0FF#16 0xF015#16 ∧
    exec (.opFX15 x) s = .next { s with dt := s.getV x }

/-- 60_exceptions.md R222: a TimerDecay subtracts 1 from the delay timer, floored at 0, and changes nothing else. -/
def Obligations.TimerDecayFloorsAtZero : Prop :=
  ∀ s : State, ∃ t, perform .timerDecay s = .next t ∧ t.dt.toNat = s.dt.toNat - 1 ∧ t = { s with dt := t.dt }

/-- 60_exceptions.md R223 and R225 (D24 and D25 are the spec's decisions; how a stop and a render request are held is the
model's, logs 11 and 24): a Stop only ends the run, and a Refresh only emits a render request with the grid as it stands. -/
def Obligations.StopAndRefreshKeepTheState : Prop :=
  ∀ s : State, perform .stop s = .next { s with stopped := true } ∧
    perform .refresh s = .next { s with renders := s.fb :: s.renders }

/-- 70_reset_and_hazards.md R247 (derived by the spec from R220 and R221): FX15, then `k` TimerDecay steps, then FX07 reads
`max(V[X] - k, 0)`. -/
def Obligations.TimerReadsAfterDecays : Prop :=
  ∀ (x y k : Nat) (s : State), x < 16 → y < 16 →
    ∃ t u, exec (.opFX15 x) s = .next t ∧ exec (.opFX07 y) (decays k t) = .next u ∧
      (u.getV y).toNat = (s.getV x).toNat - k ∧ OnlyRegs [y] (decays k t) u

/-! ## Display (40_display.md) -/

/-- 40_display.md R104, with the render request as the model's output log holds it (log 11; its contents are the spec's
decision D24): 00E0 turns every pixel off, emits one render request with the cleared grid, and changes nothing else. -/
def Obligations.ClearTurnsEveryPixelOff : Prop :=
  Encoded .op00E0 0xFFFF#16 0x00E0#16 ∧
  ∀ s : State, ∃ t, exec .op00E0 s = .next t ∧ (∀ p q, t.fb.pixel p q = false) ∧ t.renders = t.fb :: s.renders ∧
    t = { s with fb := t.fb, renders := t.renders }

/-- 40_display.md R101: a set sprite bit inverts its pixel, a clear bit leaves it; the start wraps, the body is clipped. -/
def Obligations.SpriteBitsToggleTheirPixels : Prop :=
  ∀ (f : Framebuffer) (x y : Byte) (rows : List Byte) (p q : Nat), p < 64 → q < 32 →
    (drawSprite f x y rows).fb.pixel p q =
      (f.pixel p q ^^ spriteBit x y rows.length (fun k => rows.getD k 0#8) p q)

/-- 40_display.md R102: `collided` exactly when a set bit landed inside the grid on a pixel that was on before the call. -/
def Obligations.CollisionIsAnOnPixelHit : Prop :=
  ∀ (f : Framebuffer) (x y : Byte) (rows : List Byte),
    (drawSprite f x y rows).collided = true ↔
      ∃ p q, p < 64 ∧ q < 32 ∧ spriteBit x y rows.length (fun k => rows.getD k 0#8) p q = true ∧ f.pixel p q = true

/-- 40_display.md R105 (the literal bound formula is the spec's decision D17; the render request is log 11's): DXYN with its
rows inside memory inverts exactly the pixels under the set bits of the N bytes at I, sets VF to whether one of them was on,
emits one render request with the new grid, and changes nothing else; else it raises OutOfBounds(I, N) and changes nothing else. -/
def Obligations.DrawTogglesFromMemoryAndFlags : Prop :=
  ∀ (x y n : Nat) (s : State), x < 16 → y < 16 → n < 16 →
    let a := s.idx.toNat
    let hit := spriteBit (s.getV x) (s.getV y) n (fun k => s.mem.get (a + k))
    Encoded (.opDXYN x y n) 0xF000#16 0xD000#16 ∧
    (a ≤ 0xFFF → 1 ≤ a + n → a + n ≤ 0x1000 →
      ∃ t, exec (.opDXYN x y n) s = .next t ∧
        (∀ p q, p < 64 → q < 32 → t.fb.pixel p q = (s.fb.pixel p q ^^ hit p q)) ∧
        (t.getV 15 = 1#8 ↔ ∃ p q, p < 64 ∧ q < 32 ∧ hit p q = true ∧ s.fb.pixel p q = true) ∧
        (t.getV 15 = 1#8 ∨ t.getV 15 = 0#8) ∧
        OnlyRegs [15] { s with fb := t.fb, renders := t.fb :: s.renders } t) ∧
    ((0xFFF < a ∨ a + n = 0 ∨ 0x1000 < a + n) →
      exec (.opDXYN x y n) s = .next { s with fault := some (record .outOfBounds (.opDXYN x y n) (some (a, n)) s) })

/-- 40_display.md R106 (its second sentence is derived by the spec from R100 and R102): a second identical draw restores the
grid, and sets VF to 1 exactly when a set bit met a pixel that the first draw left on. -/
def Obligations.DrawTwiceRestoresGrid : Prop :=
  ∀ (x y n : Nat) (s : State), x < 16 → y < 16 → n < 16 → inBounds s.idx.toNat n = true →
    ∃ t, exec (.opDXYN x y n) s = .next t ∧
      (t.getV x = s.getV x → t.getV y = s.getV y →
        ∃ u, exec (.opDXYN x y n) t = .next u ∧ u.fb = s.fb ∧
          (u.getV 15 = 1#8 ↔ ∃ p q, p < 64 ∧ q < 32 ∧ t.fb.pixel p q = true ∧
            spriteBit (s.getV x) (s.getV y) n (fun k => s.mem.get (s.idx.toNat + k)) p q = true))

/-! ## Faults and the ends of a run (60_exceptions.md) -/

/-- 60_exceptions.md R203 (StackOverflow is the spec's decision D3): a decoded instruction raises only the kinds its row names,
and an instruction with no row raises none. -/
def Obligations.InstructionRaisesOnlyItsFaults : Prop :=
  ∀ (w : Word) (i : Instr) (s t : State) (r : FaultRecord), decode w = .ok i → s.fault = none → exec i s = .next t →
    t.fault = some r → r.kind ∈ faultsOf i

/-- 10_state.md R22 (the guard is log 7's): a register index outside 0..15 raises InvalidRegister before any effect, and no
decoded instruction ever raises it. -/
def Obligations.RegisterIndexIsGuarded : Prop :=
  (∀ (i : Instr) (s : State), (∃ r ∈ regsUsed s.config i, 16 ≤ r) →
    exec i s = .next { s with fault := some (record .invalidRegister i none s) }) ∧
  (∀ (w : Word) (i : Instr) (s t : State) (r : FaultRecord), decode w = .ok i → s.fault = none → exec i s = .next t →
    t.fault = some r → r.kind ≠ .invalidRegister)

/-- 60_exceptions.md R201, R204, R205 (the record is the spec's decision D6, precision is derived by the spec): a step that
faults changes nothing but the scheduler's data, the fault record and, unless the fetch itself faulted, the pc by 2; the
record names the instruction's address and the word that was fetched. -/
def Obligations.FaultsArePrecise : Prop :=
  ∀ (s t : State) (r : FaultRecord), s.Running → step s = .next t → t.fault = some r →
    s.nextAction = .tick ∧ r.addr = s.pc ∧ r.word = fetch s ∧
    t = { s with
      sched := s.afterChoice.sched
      pc := if fetch s = none then s.pc else s.pc + 2#16
      fault := some r }

/-- 60_exceptions.md R202, R224, R225 (D21, D22 and D25 are the spec's decisions): a faulted or stopped run takes no step; a
halted one emits exactly one more render request, changing nothing else a program sees, and then takes no step. -/
def Obligations.EndedRunTakesNoStep : Prop :=
  (∀ (s : State) (r : FaultRecord), s.fault = some r → step s = .fault (.runFaulted r)) ∧
  (∀ s : State, s.fault = none → s.stopped = true → step s = .fault .runStopped) ∧
  (∀ s : State, s.fault = none → s.stopped = false → s.halted = true → s.finalRenderDone = false →
    step s = .next { s with renders := s.fb :: s.renders, finalRenderDone := true } ∧
    step { s with renders := s.fb :: s.renders, finalRenderDone := true } = .fault .runHalted)

/-- 93_implementation_defined.md: "No behaviour is treated as `stuck` or `refuse`". A run that has not ended always takes a
step, whatever is in memory, and nothing is ever refused. -/
def Obligations.RunningBlockAlwaysSteps : Prop :=
  (∀ s : State, s.Running → ∃ t, step s = .next t) ∧ (∀ (s : State) (r : Refusal), step s ≠ .refused r)

/-- 70_reset_and_hazards.md R249: no step changes the quirks or the parameters. -/
def Obligations.ConfigurationIsConstant : Prop :=
  ∀ (s t : State), step s = .next t → t.config = s.config

/-- 10_state.md R33, 41_control_flow.md R122 (the halt is the spec's decision D18): `halted` is set only by a Tick that ran
1NNN at its own address with HALT_ON_SELF_JUMP on, which leaves the pc there; and no step clears it. -/
def Obligations.OnlySelfJumpHalts : Prop :=
  (∀ (s t : State), s.Running → step s = .next t → t.halted = true →
    s.nextAction = .tick ∧ s.config.haltOnSelfJump = true ∧ t.pc = s.pc ∧
      ∃ nnn : Addr12, fetch s = some (0x1#4 ++ nnn) ∧ s.pc.toNat = nnn.toNat) ∧
  (∀ (s t : State), step s = .next t → s.halted = true → t.halted = true)

/-- 10_state.md R24, R29, R30, R31, R35, R36 and 20_memory.md R58: each part of the state changes only under the instructions
the rules name as its writers (that no instruction touches the scheduler is the spec's decision D26; log 3, log 11, log 24 for
the model's own fields). -/
def Obligations.OnlyNamedWritersChangeState : Prop :=
  ∀ (i : Instr) (s t : State), exec i s = .next t →
    (t.mem ≠ s.mem → ∃ x, i = .opFX33 x ∨ i = .opFX55 x) ∧
    (t.idx ≠ s.idx → (∃ a, i = .opANNN a) ∨ ∃ x, i = .opFX1E x ∨ i = .opFX29 x ∨
      (s.config.storeLoadIncrementsIndex = true ∧ (i = .opFX55 x ∨ i = .opFX65 x))) ∧
    (t.stack ≠ s.stack → i = .op00EE ∨ ∃ a, i = .op2NNN a) ∧
    (t.dt ≠ s.dt → ∃ x, i = .opFX15 x) ∧
    (t.fb ≠ s.fb → i = .op00E0 ∨ ∃ x y n, i = .opDXYN x y n) ∧
    (t.renders ≠ s.renders → i = .op00E0 ∨ ∃ x y n, i = .opDXYN x y n) ∧
    (t.rng ≠ s.rng → ∃ x nn, i = .opCXNN x nn) ∧
    (t.halted ≠ s.halted → ∃ a, i = .op1NNN a) ∧
    t.config = s.config ∧ t.sched = s.sched ∧ t.stopped = s.stopped ∧ t.finalRenderDone = s.finalRenderDone

/-- 10_state.md R21: VF changes only under an instruction that writes it as a flag or has it as its destination. -/
def Obligations.OnlyFlagWritersChangeVF : Prop :=
  ∀ (i : Instr) (s t : State), exec i s = .next t → t.getV 15 ≠ s.getV 15 →
    writesFlag s.config i = true ∨ vfIsDestination i = true

/-- 40_display.md R103, 60_exceptions.md R223, R224, R227, with the requests as the model's output log holds them (log 11; D24
and D32 are the spec's decisions): a step emits at most one render request, a copy of the grid it leaves, and emits one
exactly at the final render, a Refresh, or a Tick that ran 00E0 or DXYN without a fault. -/
def Obligations.RenderRequestsOnlyWhereNamed : Prop :=
  ∀ (s t : State), step s = .next t →
    ((t.renders = s.renders ∨ t.renders = t.fb :: s.renders) ∧
    (t.renders = t.fb :: s.renders ↔
      s.halted = true ∨ s.nextAction = .refresh ∨
        (s.nextAction = .tick ∧ t.fault = none ∧ ∃ w i, fetch s = some w ∧ decode w = .ok i ∧ drawsOrClears i = true)))

/-- 20_memory.md R57 with FONT_PROTECT on (the spec's decision D13): no step changes a byte of the font region. -/
def Obligations.ProtectedFontNeverChanges : Prop :=
  ∀ (s t : State) (a : Nat), step s = .next t → s.config.fontProtect = true → 0x050 ≤ a → a ≤ 0x09F →
    t.mem.get a = s.mem.get a

/-! ## The scheduler (60_exceptions.md R220, R221) -/

/-- 60_exceptions.md R220 (the spec's decision D19): every finite sequence of atomic steps that R220 admits from a state is
a run of `step` from that state with the sequence on its agenda (the model's DESIGN CHOICE, log 3), and ends in the same
state. -/
def Obligations.EveryFiniteScheduleRuns : Prop :=
  ∀ (as : List Action) (s t : State), PerformedInOrder as s t →
    core.run as.length { s with sched := { s.sched with agenda := as.map .act, stopAfter := none } } =
      .next { t with sched := { s.sched with agenda := [], stopAfter := none } }

/-- 10_state.md R36: "no instruction reads them". The scheduler's data, the accumulators and the model's own agenda and stop
input (DESIGN CHOICE, logs 3 and 24), never influence what an atomic step does to the rest of the state, and no atomic step
changes them (that none changes the accumulators is the spec's decision D26). -/
def Obligations.SchedulerIsInvisibleToSteps : Prop :=
  ∀ (a : Action) (s t : State) (d : Scheduler), perform a s = .next t →
    t.sched = s.sched ∧ perform a { s with sched := d } = .next { t with sched := d }

/-- 60_exceptions.md R221 (the order of the loops and the periods are the spec's decisions D20 and D29, log 4): with periods
above 0 and no stop to come one iteration of the reference scheduler gives every Tick that the elapsed time covers, then every TimerDecay, then
every Refresh, and leaves in each accumulator the remainder of its period ("catch-up semantics"). -/
def Obligations.ReferenceIterationCatchesUp : Prop :=
  ∀ (c : Config) (acc : Accumulators) (delta : Nat) (rest : List Turn),
    0 < c.periodCpu → 0 < c.periodTimer → 0 < c.periodRefresh →
    let ticks := (acc.accC + delta) / c.periodCpu
    let falls := (acc.accT + delta) / c.periodTimer
    let shows := (acc.accR + delta) / c.periodRefresh
    let left : Accumulators :=
      ⟨(acc.accC + delta) % c.periodCpu, (acc.accT + delta) % c.periodTimer, (acc.accR + delta) % c.periodRefresh⟩
    let run := choices c (ticks + falls + shows) { acc := acc, agenda := .iteration .start delta :: rest, stopAfter := none }
    run.1 = List.replicate ticks .tick ++ List.replicate falls .timerDecay ++ List.replicate shows .refresh ∧
    choose c run.2 = choose c { acc := left, agenda := rest, stopAfter := none }

/-- 60_exceptions.md R221 and R225 (the spec's decision D25; the stop input is the model's DESIGN CHOICE, log 24): "A host
stop may end the loop before any `Tick`". Wherever the scheduler stands, inside an iteration too, a stop set to come after
`k` steps leaves the `k` choices before it as they would be without it, and is the next one. -/
def Obligations.StopLandsBeforeAnyStep : Prop :=
  ∀ (c : Config) (d : Scheduler) (k : Nat),
    (choices c (k + 1) { d with stopAfter := some k }).1 = (choices c k { d with stopAfter := none }).1 ++ [.stop]

/-- 60_exceptions.md R220 and R222 (weak fairness is the spec's decision D19, log 16): in a weakly fair infinite run in which
no Tick changes the delay timer, the delay timer reaches 0. -/
def Obligations.FairRunExpiresTimer : Prop :=
  ∀ (schedule : Nat → Action) (states : Nat → State), InfiniteRun schedule states → WeaklyFair schedule →
    (∀ n, schedule n = .tick → (states (n + 1)).dt = (states n).dt) → ∃ n, (states n).dt = 0#8

/-! ## Reset, construction and the invariant -/

/-- 10_state.md R23: every general register is zero after reset, and in every unfaulted state, written before or not, a
register is read with its value and without a fault. -/
def Obligations.RegistersAreZeroAtReset : Prop :=
  ∀ r : Nat, r < 16 → State.reset.getV r = 0#8 ∧
    ∀ (s : State) (x : Nat), s.fault = none → x < 16 →
      ∃ t, exec (.op8XY0 x r) s = .next t ∧ t.getV x = s.getV r ∧ t.fault = none

/-- 70_reset_and_hazards.md R240 and 10_state.md R39, with the spec's decisions D2 (DT), D6 (fault), D12 (FONT), D26
(accumulators) and D32 (no render request), the configuration's defaults (log 8, of which D18, D13, D3 and D27 are the
spec's decisions), the nominal periods (D29) in the model's clock unit (log 4), the empty image (log 12) and the model's own
fields (logs 2, 3, 11, 24): every field of the state after reset, memory read byte by byte. -/
def Obligations.ResetStateIsAsListed : Prop :=
  let s := State.reset
  (∀ r, r < 16 → s.getV r = 0#8) ∧ s.idx = 0#16 ∧ s.pc = 0x200#16 ∧ s.stack = [] ∧ s.dt = 0#8 ∧ s.halted = false ∧ s.fault = none ∧ s.stopped = false ∧
  s.finalRenderDone = false ∧ s.renders = [] ∧ s.sched.acc = ⟨0, 0, 0⟩ ∧ s.sched.agenda = [] ∧
  s.sched.stopAfter = none ∧ s.rng.injected = [] ∧ s.rng.seed = 0 ∧ s.rng.drawn = 0 ∧
  s.config.cpuHz = 500 ∧ s.config.periodCpu = 6 ∧ s.config.periodTimer = 50 ∧ s.config.periodRefresh = 50 ∧
  s.config.shiftLoadsY = false ∧ s.config.indexOverflowFlag = true ∧ s.config.storeLoadIncrementsIndex = false ∧
  s.config.haltOnSelfJump = true ∧ s.config.fontProtect = false ∧ s.config.stackCap = none ∧
  (∀ p q, s.fb.pixel p q = false) ∧
  (∀ k, k < 80 → some (s.mem.get (0x050 + k)) = Config.defaultFont[k]?) ∧
  (∀ a, a < 0x1000 → (a < 0x050 ∨ 0x09F < a) → s.mem.get a = 0#8)

/-- 70_reset_and_hazards.md R240, R242 (D11 is the spec's decision, log 12): construction puts FONT at 0x050, the image at
0x200 and zero elsewhere, with the given configuration and random source and every register at its reset value, in a state
that meets the invariant; an image over 3584 bytes fails with the OutOfBounds of the write at 0x1000. -/
def Obligations.ConstructionLoadsFontAndImage : Prop :=
  ∀ (c : Config) (font : Vector Byte 80) (r : Rng) (image : List Byte),
    (image.length ≤ 3584 →
      ∃ t, State.construct c font r image = .next t ∧
        t = { State.reset with mem := t.mem, config := c, rng := r } ∧ Inv t ∧
        (∀ k, k < 80 → some (t.mem.get (0x050 + k)) = font[k]?) ∧
        (∀ k, k < image.length → some (t.mem.get (0x200 + k)) = image[k]?) ∧
        (∀ a, a < 0x1000 → (a < 0x050 ∨ 0x09F < a) → (a < 0x200 ∨ 0x200 + image.length ≤ a) → t.mem.get a = 0#8)) ∧
    (3584 < image.length → State.construct c font r image = .fault (.constructionOutOfBounds 0x1000 1))

/-- 10_state.md R24 and R27, 60_exceptions.md R232, 92_eei_decisions.md D3, and the canonical form of memory: every step keeps
the invariant `Inv`. -/
def Obligations.StepKeepsInvariant : Prop :=
  ∀ (s t : State), Inv s → step s = .next t → Inv t

/-- The invariant `Inv` holds at reset. -/
def Obligations.ResetMeetsInvariant : Prop := Inv State.reset
end

