-- ==== Sys2Proof/Laws/Decode.lean ====
section
/-! SUPPORT. The fields of the three word shapes of the encoder, and the fixed bits of each shape (30_encoding.md R80). -/

namespace Sys2Proof

@[simp] theorem fieldF_wordNNN (f : BitVec 4) (a : Addr12) : fieldF (wordNNN f a) = f :=
  BitVec.extractLsb'_append_eq_left

@[simp] theorem fieldNNN_wordNNN (f : BitVec 4) (a : Addr12) : fieldNNN (wordNNN f a) = a :=
  BitVec.extractLsb'_append_eq_right

@[simp] theorem fieldF_wordXNN (f : BitVec 4) (x : Nat) (b : Byte) : fieldF (wordXNN f x b) = f :=
  BitVec.extractLsb'_append_eq_left

@[simp] theorem fieldX_wordXNN (f : BitVec 4) (x : Nat) (b : Byte) : fieldX (wordXNN f x b) = BitVec.ofNat 4 x := by
  unfold fieldX wordXNN
  rw [BitVec.extractLsb'_append_eq_of_add_le (by omega)]
  exact BitVec.extractLsb'_append_eq_left

@[simp] theorem fieldNN_wordXNN (f : BitVec 4) (x : Nat) (b : Byte) : fieldNN (wordXNN f x b) = b := by
  unfold fieldNN wordXNN
  rw [BitVec.extractLsb'_append_eq_of_add_le (by omega)]
  exact BitVec.extractLsb'_append_eq_right

@[simp] theorem fieldF_wordXYN (f : BitVec 4) (x y : Nat) (n : BitVec 4) : fieldF (wordXYN f x y n) = f :=
  BitVec.extractLsb'_append_eq_left

@[simp] theorem fieldX_wordXYN (f : BitVec 4) (x y : Nat) (n : BitVec 4) :
    fieldX (wordXYN f x y n) = BitVec.ofNat 4 x := by
  unfold fieldX wordXYN
  rw [BitVec.extractLsb'_append_eq_of_add_le (by omega)]
  exact BitVec.extractLsb'_append_eq_left

@[simp] theorem fieldY_wordXYN (f : BitVec 4) (x y : Nat) (n : BitVec 4) :
    fieldY (wordXYN f x y n) = BitVec.ofNat 4 y := by
  unfold fieldY wordXYN
  rw [BitVec.extractLsb'_append_eq_of_add_le (by omega), BitVec.extractLsb'_append_eq_of_add_le (by omega)]
  exact BitVec.extractLsb'_append_eq_left

@[simp] theorem fieldN_wordXYN (f : BitVec 4) (x y : Nat) (n : BitVec 4) : fieldN (wordXYN f x y n) = n := by
  unfold fieldN wordXYN
  rw [BitVec.extractLsb'_append_eq_of_add_le (by omega), BitVec.extractLsb'_append_eq_of_add_le (by omega)]
  exact BitVec.extractLsb'_append_eq_right

/-- The fixed bits of a word with an address immediate. -/
theorem wordNNN_and (f g : BitVec 4) (a b : Addr12) : wordNNN f a &&& wordNNN g b = wordNNN (f &&& g) (a &&& b) :=
  BitVec.and_append

/-- The fixed bits of a word with one register index: under the mask of its family only. -/
theorem wordXNN_and_family (f : BitVec 4) (x : Nat) (b : Byte) : wordXNN f x b &&& 0xF000#16 = wordNNN f 0#12 := by
  rw [show (0xF000#16 : Word) = 0xF#4 ++ 0#12 from rfl, wordXNN, BitVec.and_append, wordNNN, BitVec.and_zero]
  congr 1
  exact BitVec.and_allOnes

/-- The fixed bits of a word with one register index: family and low byte. -/
theorem wordXNN_and_low (f : BitVec 4) (x : Nat) (b : Byte) :
    wordXNN f x b &&& 0xF0FF#16 = f ++ ((0#4 : BitVec 4) ++ b) := by
  rw [show (0xF0FF#16 : Word) = 0xF#4 ++ ((0#4 : BitVec 4) ++ 0xFF#8) from rfl, wordXNN, BitVec.and_append,
    BitVec.and_append, BitVec.and_zero]
  congr 1
  · exact BitVec.and_allOnes
  · congr 1
    exact BitVec.and_allOnes

/-- The fixed bits of a word with two register indices: family and low nibble. -/
theorem wordXYN_and_low (f : BitVec 4) (x y : Nat) (n : BitVec 4) :
    wordXYN f x y n &&& 0xF00F#16 = f ++ ((0#4 : BitVec 4) ++ ((0#4 : BitVec 4) ++ n)) := by
  rw [show (0xF00F#16 : Word) = 0xF#4 ++ ((0#4 : BitVec 4) ++ ((0#4 : BitVec 4) ++ 0xF#4)) from rfl, wordXYN,
    BitVec.and_append, BitVec.and_append, BitVec.and_append, BitVec.and_zero, BitVec.and_zero]
  congr 1
  · exact BitVec.and_allOnes
  · congr 2
    exact BitVec.and_allOnes

/-- The fixed bits of a word with two register indices: family only. -/
theorem wordXYN_and_family (f : BitVec 4) (x y : Nat) (n : BitVec 4) :
    wordXYN f x y n &&& 0xF000#16 = wordNNN f 0#12 := by
  rw [show (0xF000#16 : Word) = 0xF#4 ++ 0#12 from rfl, wordXYN, BitVec.and_append, wordNNN, BitVec.and_zero]
  congr 1
  exact BitVec.and_allOnes

end Sys2Proof
end

