-- ==== Sys2Proof/Laws/State.lean ====
section
/-! SUPPORT. One lemma per field per update of the state, each true by unfolding the update, so that no later proof
unfolds a record update; and reading a register after each update. -/

namespace Sys2Proof.Machine

variable (s : State)

@[simp] theorem State.setMem_mem (m : Memory) : (s.setMem m).mem = m := rfl
@[simp] theorem State.setMem_v (m : Memory) : (s.setMem m).v = s.v := rfl
@[simp] theorem State.setMem_idx (m : Memory) : (s.setMem m).idx = s.idx := rfl
@[simp] theorem State.setMem_pc (m : Memory) : (s.setMem m).pc = s.pc := rfl
@[simp] theorem State.setMem_stack (m : Memory) : (s.setMem m).stack = s.stack := rfl
@[simp] theorem State.setMem_dt (m : Memory) : (s.setMem m).dt = s.dt := rfl
@[simp] theorem State.setMem_fb (m : Memory) : (s.setMem m).fb = s.fb := rfl
@[simp] theorem State.setMem_config (m : Memory) : (s.setMem m).config = s.config := rfl
@[simp] theorem State.setMem_halted (m : Memory) : (s.setMem m).halted = s.halted := rfl
@[simp] theorem State.setMem_fault (m : Memory) : (s.setMem m).fault = s.fault := rfl
@[simp] theorem State.setMem_stopped (m : Memory) : (s.setMem m).stopped = s.stopped := rfl
@[simp] theorem State.setMem_finalRenderDone (m : Memory) : (s.setMem m).finalRenderDone = s.finalRenderDone := rfl
@[simp] theorem State.setMem_rng (m : Memory) : (s.setMem m).rng = s.rng := rfl
@[simp] theorem State.setMem_sched (m : Memory) : (s.setMem m).sched = s.sched := rfl
@[simp] theorem State.setMem_renders (m : Memory) : (s.setMem m).renders = s.renders := rfl

@[simp] theorem State.setV_mem (r : Nat) (b : Byte) : (s.setV r b).mem = s.mem := rfl
@[simp] theorem State.setV_v (r : Nat) (b : Byte) : (s.setV r b).v = s.v.setIfInBounds r b := rfl
@[simp] theorem State.setV_idx (r : Nat) (b : Byte) : (s.setV r b).idx = s.idx := rfl
@[simp] theorem State.setV_pc (r : Nat) (b : Byte) : (s.setV r b).pc = s.pc := rfl
@[simp] theorem State.setV_stack (r : Nat) (b : Byte) : (s.setV r b).stack = s.stack := rfl
@[simp] theorem State.setV_dt (r : Nat) (b : Byte) : (s.setV r b).dt = s.dt := rfl
@[simp] theorem State.setV_fb (r : Nat) (b : Byte) : (s.setV r b).fb = s.fb := rfl
@[simp] theorem State.setV_config (r : Nat) (b : Byte) : (s.setV r b).config = s.config := rfl
@[simp] theorem State.setV_halted (r : Nat) (b : Byte) : (s.setV r b).halted = s.halted := rfl
@[simp] theorem State.setV_fault (r : Nat) (b : Byte) : (s.setV r b).fault = s.fault := rfl
@[simp] theorem State.setV_stopped (r : Nat) (b : Byte) : (s.setV r b).stopped = s.stopped := rfl
@[simp] theorem State.setV_finalRenderDone (r : Nat) (b : Byte) : (s.setV r b).finalRenderDone = s.finalRenderDone := rfl
@[simp] theorem State.setV_rng (r : Nat) (b : Byte) : (s.setV r b).rng = s.rng := rfl
@[simp] theorem State.setV_sched (r : Nat) (b : Byte) : (s.setV r b).sched = s.sched := rfl
@[simp] theorem State.setV_renders (r : Nat) (b : Byte) : (s.setV r b).renders = s.renders := rfl

@[simp] theorem State.setIdx_mem (w : Word) : (s.setIdx w).mem = s.mem := rfl
@[simp] theorem State.setIdx_v (w : Word) : (s.setIdx w).v = s.v := rfl
@[simp] theorem State.setIdx_idx (w : Word) : (s.setIdx w).idx = w := rfl
@[simp] theorem State.setIdx_pc (w : Word) : (s.setIdx w).pc = s.pc := rfl
@[simp] theorem State.setIdx_stack (w : Word) : (s.setIdx w).stack = s.stack := rfl
@[simp] theorem State.setIdx_dt (w : Word) : (s.setIdx w).dt = s.dt := rfl
@[simp] theorem State.setIdx_fb (w : Word) : (s.setIdx w).fb = s.fb := rfl
@[simp] theorem State.setIdx_config (w : Word) : (s.setIdx w).config = s.config := rfl
@[simp] theorem State.setIdx_halted (w : Word) : (s.setIdx w).halted = s.halted := rfl
@[simp] theorem State.setIdx_fault (w : Word) : (s.setIdx w).fault = s.fault := rfl
@[simp] theorem State.setIdx_stopped (w : Word) : (s.setIdx w).stopped = s.stopped := rfl
@[simp] theorem State.setIdx_finalRenderDone (w : Word) : (s.setIdx w).finalRenderDone = s.finalRenderDone := rfl
@[simp] theorem State.setIdx_rng (w : Word) : (s.setIdx w).rng = s.rng := rfl
@[simp] theorem State.setIdx_sched (w : Word) : (s.setIdx w).sched = s.sched := rfl
@[simp] theorem State.setIdx_renders (w : Word) : (s.setIdx w).renders = s.renders := rfl

@[simp] theorem State.setPc_mem (w : Word) : (s.setPc w).mem = s.mem := rfl
@[simp] theorem State.setPc_v (w : Word) : (s.setPc w).v = s.v := rfl
@[simp] theorem State.setPc_idx (w : Word) : (s.setPc w).idx = s.idx := rfl
@[simp] theorem State.setPc_pc (w : Word) : (s.setPc w).pc = w := rfl
@[simp] theorem State.setPc_stack (w : Word) : (s.setPc w).stack = s.stack := rfl
@[simp] theorem State.setPc_dt (w : Word) : (s.setPc w).dt = s.dt := rfl
@[simp] theorem State.setPc_fb (w : Word) : (s.setPc w).fb = s.fb := rfl
@[simp] theorem State.setPc_config (w : Word) : (s.setPc w).config = s.config := rfl
@[simp] theorem State.setPc_halted (w : Word) : (s.setPc w).halted = s.halted := rfl
@[simp] theorem State.setPc_fault (w : Word) : (s.setPc w).fault = s.fault := rfl
@[simp] theorem State.setPc_stopped (w : Word) : (s.setPc w).stopped = s.stopped := rfl
@[simp] theorem State.setPc_finalRenderDone (w : Word) : (s.setPc w).finalRenderDone = s.finalRenderDone := rfl
@[simp] theorem State.setPc_rng (w : Word) : (s.setPc w).rng = s.rng := rfl
@[simp] theorem State.setPc_sched (w : Word) : (s.setPc w).sched = s.sched := rfl
@[simp] theorem State.setPc_renders (w : Word) : (s.setPc w).renders = s.renders := rfl

@[simp] theorem State.setStack_mem (l : List Word) : (s.setStack l).mem = s.mem := rfl
@[simp] theorem State.setStack_v (l : List Word) : (s.setStack l).v = s.v := rfl
@[simp] theorem State.setStack_idx (l : List Word) : (s.setStack l).idx = s.idx := rfl
@[simp] theorem State.setStack_pc (l : List Word) : (s.setStack l).pc = s.pc := rfl
@[simp] theorem State.setStack_stack (l : List Word) : (s.setStack l).stack = l := rfl
@[simp] theorem State.setStack_dt (l : List Word) : (s.setStack l).dt = s.dt := rfl
@[simp] theorem State.setStack_fb (l : List Word) : (s.setStack l).fb = s.fb := rfl
@[simp] theorem State.setStack_config (l : List Word) : (s.setStack l).config = s.config := rfl
@[simp] theorem State.setStack_halted (l : List Word) : (s.setStack l).halted = s.halted := rfl
@[simp] theorem State.setStack_fault (l : List Word) : (s.setStack l).fault = s.fault := rfl
@[simp] theorem State.setStack_stopped (l : List Word) : (s.setStack l).stopped = s.stopped := rfl
@[simp] theorem State.setStack_finalRenderDone (l : List Word) : (s.setStack l).finalRenderDone = s.finalRenderDone := rfl
@[simp] theorem State.setStack_rng (l : List Word) : (s.setStack l).rng = s.rng := rfl
@[simp] theorem State.setStack_sched (l : List Word) : (s.setStack l).sched = s.sched := rfl
@[simp] theorem State.setStack_renders (l : List Word) : (s.setStack l).renders = s.renders := rfl

@[simp] theorem State.setDt_mem (b : Byte) : (s.setDt b).mem = s.mem := rfl
@[simp] theorem State.setDt_v (b : Byte) : (s.setDt b).v = s.v := rfl
@[simp] theorem State.setDt_idx (b : Byte) : (s.setDt b).idx = s.idx := rfl
@[simp] theorem State.setDt_pc (b : Byte) : (s.setDt b).pc = s.pc := rfl
@[simp] theorem State.setDt_stack (b : Byte) : (s.setDt b).stack = s.stack := rfl
@[simp] theorem State.setDt_dt (b : Byte) : (s.setDt b).dt = b := rfl
@[simp] theorem State.setDt_fb (b : Byte) : (s.setDt b).fb = s.fb := rfl
@[simp] theorem State.setDt_config (b : Byte) : (s.setDt b).config = s.config := rfl
@[simp] theorem State.setDt_halted (b : Byte) : (s.setDt b).halted = s.halted := rfl
@[simp] theorem State.setDt_fault (b : Byte) : (s.setDt b).fault = s.fault := rfl
@[simp] theorem State.setDt_stopped (b : Byte) : (s.setDt b).stopped = s.stopped := rfl
@[simp] theorem State.setDt_finalRenderDone (b : Byte) : (s.setDt b).finalRenderDone = s.finalRenderDone := rfl
@[simp] theorem State.setDt_rng (b : Byte) : (s.setDt b).rng = s.rng := rfl
@[simp] theorem State.setDt_sched (b : Byte) : (s.setDt b).sched = s.sched := rfl
@[simp] theorem State.setDt_renders (b : Byte) : (s.setDt b).renders = s.renders := rfl

@[simp] theorem State.setFb_mem (f : Framebuffer) : (s.setFb f).mem = s.mem := rfl
@[simp] theorem State.setFb_v (f : Framebuffer) : (s.setFb f).v = s.v := rfl
@[simp] theorem State.setFb_idx (f : Framebuffer) : (s.setFb f).idx = s.idx := rfl
@[simp] theorem State.setFb_pc (f : Framebuffer) : (s.setFb f).pc = s.pc := rfl
@[simp] theorem State.setFb_stack (f : Framebuffer) : (s.setFb f).stack = s.stack := rfl
@[simp] theorem State.setFb_dt (f : Framebuffer) : (s.setFb f).dt = s.dt := rfl
@[simp] theorem State.setFb_fb (f : Framebuffer) : (s.setFb f).fb = f := rfl
@[simp] theorem State.setFb_config (f : Framebuffer) : (s.setFb f).config = s.config := rfl
@[simp] theorem State.setFb_halted (f : Framebuffer) : (s.setFb f).halted = s.halted := rfl
@[simp] theorem State.setFb_fault (f : Framebuffer) : (s.setFb f).fault = s.fault := rfl
@[simp] theorem State.setFb_stopped (f : Framebuffer) : (s.setFb f).stopped = s.stopped := rfl
@[simp] theorem State.setFb_finalRenderDone (f : Framebuffer) : (s.setFb f).finalRenderDone = s.finalRenderDone := rfl
@[simp] theorem State.setFb_rng (f : Framebuffer) : (s.setFb f).rng = s.rng := rfl
@[simp] theorem State.setFb_sched (f : Framebuffer) : (s.setFb f).sched = s.sched := rfl
@[simp] theorem State.setFb_renders (f : Framebuffer) : (s.setFb f).renders = s.renders := rfl

@[simp] theorem State.setHalted_mem : s.setHalted.mem = s.mem := rfl
@[simp] theorem State.setHalted_v : s.setHalted.v = s.v := rfl
@[simp] theorem State.setHalted_idx : s.setHalted.idx = s.idx := rfl
@[simp] theorem State.setHalted_pc : s.setHalted.pc = s.pc := rfl
@[simp] theorem State.setHalted_stack : s.setHalted.stack = s.stack := rfl
@[simp] theorem State.setHalted_dt : s.setHalted.dt = s.dt := rfl
@[simp] theorem State.setHalted_fb : s.setHalted.fb = s.fb := rfl
@[simp] theorem State.setHalted_config : s.setHalted.config = s.config := rfl
@[simp] theorem State.setHalted_halted : s.setHalted.halted = true := rfl
@[simp] theorem State.setHalted_fault : s.setHalted.fault = s.fault := rfl
@[simp] theorem State.setHalted_stopped : s.setHalted.stopped = s.stopped := rfl
@[simp] theorem State.setHalted_finalRenderDone : s.setHalted.finalRenderDone = s.finalRenderDone := rfl
@[simp] theorem State.setHalted_rng : s.setHalted.rng = s.rng := rfl
@[simp] theorem State.setHalted_sched : s.setHalted.sched = s.sched := rfl
@[simp] theorem State.setHalted_renders : s.setHalted.renders = s.renders := rfl

@[simp] theorem State.setFault_mem (r : FaultRecord) : (s.setFault r).mem = s.mem := rfl
@[simp] theorem State.setFault_v (r : FaultRecord) : (s.setFault r).v = s.v := rfl
@[simp] theorem State.setFault_idx (r : FaultRecord) : (s.setFault r).idx = s.idx := rfl
@[simp] theorem State.setFault_pc (r : FaultRecord) : (s.setFault r).pc = s.pc := rfl
@[simp] theorem State.setFault_stack (r : FaultRecord) : (s.setFault r).stack = s.stack := rfl
@[simp] theorem State.setFault_dt (r : FaultRecord) : (s.setFault r).dt = s.dt := rfl
@[simp] theorem State.setFault_fb (r : FaultRecord) : (s.setFault r).fb = s.fb := rfl
@[simp] theorem State.setFault_config (r : FaultRecord) : (s.setFault r).config = s.config := rfl
@[simp] theorem State.setFault_halted (r : FaultRecord) : (s.setFault r).halted = s.halted := rfl
@[simp] theorem State.setFault_fault (r : FaultRecord) : (s.setFault r).fault = some r := rfl
@[simp] theorem State.setFault_stopped (r : FaultRecord) : (s.setFault r).stopped = s.stopped := rfl
@[simp] theorem State.setFault_finalRenderDone (r : FaultRecord) : (s.setFault r).finalRenderDone = s.finalRenderDone := rfl
@[simp] theorem State.setFault_rng (r : FaultRecord) : (s.setFault r).rng = s.rng := rfl
@[simp] theorem State.setFault_sched (r : FaultRecord) : (s.setFault r).sched = s.sched := rfl
@[simp] theorem State.setFault_renders (r : FaultRecord) : (s.setFault r).renders = s.renders := rfl

@[simp] theorem State.setStopped_mem : s.setStopped.mem = s.mem := rfl
@[simp] theorem State.setStopped_v : s.setStopped.v = s.v := rfl
@[simp] theorem State.setStopped_idx : s.setStopped.idx = s.idx := rfl
@[simp] theorem State.setStopped_pc : s.setStopped.pc = s.pc := rfl
@[simp] theorem State.setStopped_stack : s.setStopped.stack = s.stack := rfl
@[simp] theorem State.setStopped_dt : s.setStopped.dt = s.dt := rfl
@[simp] theorem State.setStopped_fb : s.setStopped.fb = s.fb := rfl
@[simp] theorem State.setStopped_config : s.setStopped.config = s.config := rfl
@[simp] theorem State.setStopped_halted : s.setStopped.halted = s.halted := rfl
@[simp] theorem State.setStopped_fault : s.setStopped.fault = s.fault := rfl
@[simp] theorem State.setStopped_stopped : s.setStopped.stopped = true := rfl
@[simp] theorem State.setStopped_finalRenderDone : s.setStopped.finalRenderDone = s.finalRenderDone := rfl
@[simp] theorem State.setStopped_rng : s.setStopped.rng = s.rng := rfl
@[simp] theorem State.setStopped_sched : s.setStopped.sched = s.sched := rfl
@[simp] theorem State.setStopped_renders : s.setStopped.renders = s.renders := rfl

@[simp] theorem State.setFinalRenderDone_mem : s.setFinalRenderDone.mem = s.mem := rfl
@[simp] theorem State.setFinalRenderDone_v : s.setFinalRenderDone.v = s.v := rfl
@[simp] theorem State.setFinalRenderDone_idx : s.setFinalRenderDone.idx = s.idx := rfl
@[simp] theorem State.setFinalRenderDone_pc : s.setFinalRenderDone.pc = s.pc := rfl
@[simp] theorem State.setFinalRenderDone_stack : s.setFinalRenderDone.stack = s.stack := rfl
@[simp] theorem State.setFinalRenderDone_dt : s.setFinalRenderDone.dt = s.dt := rfl
@[simp] theorem State.setFinalRenderDone_fb : s.setFinalRenderDone.fb = s.fb := rfl
@[simp] theorem State.setFinalRenderDone_config : s.setFinalRenderDone.config = s.config := rfl
@[simp] theorem State.setFinalRenderDone_halted : s.setFinalRenderDone.halted = s.halted := rfl
@[simp] theorem State.setFinalRenderDone_fault : s.setFinalRenderDone.fault = s.fault := rfl
@[simp] theorem State.setFinalRenderDone_stopped : s.setFinalRenderDone.stopped = s.stopped := rfl
@[simp] theorem State.setFinalRenderDone_finalRenderDone : s.setFinalRenderDone.finalRenderDone = true := rfl
@[simp] theorem State.setFinalRenderDone_rng : s.setFinalRenderDone.rng = s.rng := rfl
@[simp] theorem State.setFinalRenderDone_sched : s.setFinalRenderDone.sched = s.sched := rfl
@[simp] theorem State.setFinalRenderDone_renders : s.setFinalRenderDone.renders = s.renders := rfl

@[simp] theorem State.setRng_mem (r : Rng) : (s.setRng r).mem = s.mem := rfl
@[simp] theorem State.setRng_v (r : Rng) : (s.setRng r).v = s.v := rfl
@[simp] theorem State.setRng_idx (r : Rng) : (s.setRng r).idx = s.idx := rfl
@[simp] theorem State.setRng_pc (r : Rng) : (s.setRng r).pc = s.pc := rfl
@[simp] theorem State.setRng_stack (r : Rng) : (s.setRng r).stack = s.stack := rfl
@[simp] theorem State.setRng_dt (r : Rng) : (s.setRng r).dt = s.dt := rfl
@[simp] theorem State.setRng_fb (r : Rng) : (s.setRng r).fb = s.fb := rfl
@[simp] theorem State.setRng_config (r : Rng) : (s.setRng r).config = s.config := rfl
@[simp] theorem State.setRng_halted (r : Rng) : (s.setRng r).halted = s.halted := rfl
@[simp] theorem State.setRng_fault (r : Rng) : (s.setRng r).fault = s.fault := rfl
@[simp] theorem State.setRng_stopped (r : Rng) : (s.setRng r).stopped = s.stopped := rfl
@[simp] theorem State.setRng_finalRenderDone (r : Rng) : (s.setRng r).finalRenderDone = s.finalRenderDone := rfl
@[simp] theorem State.setRng_rng (r : Rng) : (s.setRng r).rng = r := rfl
@[simp] theorem State.setRng_sched (r : Rng) : (s.setRng r).sched = s.sched := rfl
@[simp] theorem State.setRng_renders (r : Rng) : (s.setRng r).renders = s.renders := rfl

@[simp] theorem State.setSched_mem (c : Scheduler) : (s.setSched c).mem = s.mem := rfl
@[simp] theorem State.setSched_v (c : Scheduler) : (s.setSched c).v = s.v := rfl
@[simp] theorem State.setSched_idx (c : Scheduler) : (s.setSched c).idx = s.idx := rfl
@[simp] theorem State.setSched_pc (c : Scheduler) : (s.setSched c).pc = s.pc := rfl
@[simp] theorem State.setSched_stack (c : Scheduler) : (s.setSched c).stack = s.stack := rfl
@[simp] theorem State.setSched_dt (c : Scheduler) : (s.setSched c).dt = s.dt := rfl
@[simp] theorem State.setSched_fb (c : Scheduler) : (s.setSched c).fb = s.fb := rfl
@[simp] theorem State.setSched_config (c : Scheduler) : (s.setSched c).config = s.config := rfl
@[simp] theorem State.setSched_halted (c : Scheduler) : (s.setSched c).halted = s.halted := rfl
@[simp] theorem State.setSched_fault (c : Scheduler) : (s.setSched c).fault = s.fault := rfl
@[simp] theorem State.setSched_stopped (c : Scheduler) : (s.setSched c).stopped = s.stopped := rfl
@[simp] theorem State.setSched_finalRenderDone (c : Scheduler) : (s.setSched c).finalRenderDone = s.finalRenderDone := rfl
@[simp] theorem State.setSched_rng (c : Scheduler) : (s.setSched c).rng = s.rng := rfl
@[simp] theorem State.setSched_sched (c : Scheduler) : (s.setSched c).sched = c := rfl
@[simp] theorem State.setSched_renders (c : Scheduler) : (s.setSched c).renders = s.renders := rfl

@[simp] theorem State.emitRender_mem : s.emitRender.mem = s.mem := rfl
@[simp] theorem State.emitRender_v : s.emitRender.v = s.v := rfl
@[simp] theorem State.emitRender_idx : s.emitRender.idx = s.idx := rfl
@[simp] theorem State.emitRender_pc : s.emitRender.pc = s.pc := rfl
@[simp] theorem State.emitRender_stack : s.emitRender.stack = s.stack := rfl
@[simp] theorem State.emitRender_dt : s.emitRender.dt = s.dt := rfl
@[simp] theorem State.emitRender_fb : s.emitRender.fb = s.fb := rfl
@[simp] theorem State.emitRender_config : s.emitRender.config = s.config := rfl
@[simp] theorem State.emitRender_halted : s.emitRender.halted = s.halted := rfl
@[simp] theorem State.emitRender_fault : s.emitRender.fault = s.fault := rfl
@[simp] theorem State.emitRender_stopped : s.emitRender.stopped = s.stopped := rfl
@[simp] theorem State.emitRender_finalRenderDone : s.emitRender.finalRenderDone = s.finalRenderDone := rfl
@[simp] theorem State.emitRender_rng : s.emitRender.rng = s.rng := rfl
@[simp] theorem State.emitRender_sched : s.emitRender.sched = s.sched := rfl
@[simp] theorem State.emitRender_renders : s.emitRender.renders = s.fb :: s.renders := rfl

@[simp] theorem State.advancePc_mem : s.advancePc.mem = s.mem := rfl
@[simp] theorem State.advancePc_v : s.advancePc.v = s.v := rfl
@[simp] theorem State.advancePc_idx : s.advancePc.idx = s.idx := rfl
@[simp] theorem State.advancePc_pc : s.advancePc.pc = s.pc + 2#16 := rfl
@[simp] theorem State.advancePc_stack : s.advancePc.stack = s.stack := rfl
@[simp] theorem State.advancePc_dt : s.advancePc.dt = s.dt := rfl
@[simp] theorem State.advancePc_fb : s.advancePc.fb = s.fb := rfl
@[simp] theorem State.advancePc_config : s.advancePc.config = s.config := rfl
@[simp] theorem State.advancePc_halted : s.advancePc.halted = s.halted := rfl
@[simp] theorem State.advancePc_fault : s.advancePc.fault = s.fault := rfl
@[simp] theorem State.advancePc_stopped : s.advancePc.stopped = s.stopped := rfl
@[simp] theorem State.advancePc_finalRenderDone : s.advancePc.finalRenderDone = s.finalRenderDone := rfl
@[simp] theorem State.advancePc_rng : s.advancePc.rng = s.rng := rfl
@[simp] theorem State.advancePc_sched : s.advancePc.sched = s.sched := rfl
@[simp] theorem State.advancePc_renders : s.advancePc.renders = s.renders := rfl

@[simp] theorem State.push_mem (w : Word) : (s.push w).mem = s.mem := rfl
@[simp] theorem State.push_v (w : Word) : (s.push w).v = s.v := rfl
@[simp] theorem State.push_idx (w : Word) : (s.push w).idx = s.idx := rfl
@[simp] theorem State.push_pc (w : Word) : (s.push w).pc = s.pc := rfl
@[simp] theorem State.push_stack (w : Word) : (s.push w).stack = w :: s.stack := rfl
@[simp] theorem State.push_dt (w : Word) : (s.push w).dt = s.dt := rfl
@[simp] theorem State.push_fb (w : Word) : (s.push w).fb = s.fb := rfl
@[simp] theorem State.push_config (w : Word) : (s.push w).config = s.config := rfl
@[simp] theorem State.push_halted (w : Word) : (s.push w).halted = s.halted := rfl
@[simp] theorem State.push_fault (w : Word) : (s.push w).fault = s.fault := rfl
@[simp] theorem State.push_stopped (w : Word) : (s.push w).stopped = s.stopped := rfl
@[simp] theorem State.push_finalRenderDone (w : Word) : (s.push w).finalRenderDone = s.finalRenderDone := rfl
@[simp] theorem State.push_rng (w : Word) : (s.push w).rng = s.rng := rfl
@[simp] theorem State.push_sched (w : Word) : (s.push w).sched = s.sched := rfl
@[simp] theorem State.push_renders (w : Word) : (s.push w).renders = s.renders := rfl

@[simp] theorem State.getV_setMem (m : Memory) (q : Nat) : (s.setMem m).getV q = s.getV q := rfl
@[simp] theorem State.getV_setIdx (w : Word) (q : Nat) : (s.setIdx w).getV q = s.getV q := rfl
@[simp] theorem State.getV_setPc (w : Word) (q : Nat) : (s.setPc w).getV q = s.getV q := rfl
@[simp] theorem State.getV_setStack (l : List Word) (q : Nat) : (s.setStack l).getV q = s.getV q := rfl
@[simp] theorem State.getV_setDt (b : Byte) (q : Nat) : (s.setDt b).getV q = s.getV q := rfl
@[simp] theorem State.getV_setFb (f : Framebuffer) (q : Nat) : (s.setFb f).getV q = s.getV q := rfl
@[simp] theorem State.getV_setHalted (q : Nat) : s.setHalted.getV q = s.getV q := rfl
@[simp] theorem State.getV_setFault (r : FaultRecord) (q : Nat) : (s.setFault r).getV q = s.getV q := rfl
@[simp] theorem State.getV_setStopped (q : Nat) : s.setStopped.getV q = s.getV q := rfl
@[simp] theorem State.getV_setFinalRenderDone (q : Nat) : s.setFinalRenderDone.getV q = s.getV q := rfl
@[simp] theorem State.getV_setRng (r : Rng) (q : Nat) : (s.setRng r).getV q = s.getV q := rfl
@[simp] theorem State.getV_setSched (c : Scheduler) (q : Nat) : (s.setSched c).getV q = s.getV q := rfl
@[simp] theorem State.getV_emitRender (q : Nat) : s.emitRender.getV q = s.getV q := rfl
@[simp] theorem State.getV_advancePc (q : Nat) : s.advancePc.getV q = s.getV q := rfl
@[simp] theorem State.getV_push (w : Word) (q : Nat) : (s.push w).getV q = s.getV q := rfl

/-- A register reads back what was written to it (10_state.md R20). -/
@[simp] theorem State.getV_setV_same (r : Nat) (b : Byte) (h : r < 16) : (s.setV r b).getV r = b := by
  simp [State.getV, h]

/-- Writing one register leaves every other one. -/
@[simp] theorem State.getV_setV_ne (r q : Nat) (b : Byte) (h : r ≠ q) : (s.setV r b).getV q = s.getV q := by
  simp [State.getV, h]

/-- Reading a register after a write, in one equation. -/
theorem State.getV_setV (r q : Nat) (b : Byte) (hr : r < 16) :
    (s.setV r b).getV q = if r = q then b else s.getV q := by
  by_cases h : r = q
  · subst h; simp [hr]
  · simp [h]

/-- Two register files that read alike are equal. -/
theorem State.v_ext (t : State) (h : ∀ r, r < 16 → t.getV r = s.getV r) : t.v = s.v := by
  apply Vector.ext
  intro r hr
  have := h r hr
  simpa [State.getV, hr] using this

/-- Writing a register back with its own value changes nothing. -/
@[simp] theorem State.setV_getV (r : Nat) : s.setV r (s.getV r) = s := by
  have h : (s.setV r (s.getV r)).v = s.v := by
    apply State.v_ext
    intro q hq
    by_cases hrq : r = q
    · subst hrq; simp [hq]
    · simp [hrq]
  cases s
  simp only [State.setV] at h ⊢
  simp_all

/-- A skip advances the pc by 2 exactly when its condition holds (41_control_flow.md R128). -/
theorem State.skipIf_eq (c : Bool) : s.skipIf c = s.setPc (if c then s.pc + 2#16 else s.pc) := by
  cases c <;> rfl

end Sys2Proof.Machine
end

