-- ==== Sys2Proof/Laws/Display.lean ====
section
/-! SUPPORT. The small lemmas of the framebuffer: reading a pixel after a clear, a toggle and a hit. -/

namespace Sys2Proof.Machine

/-- Every pixel of the cleared grid is off (10_state.md R31). -/
@[simp] theorem Framebuffer.pixel_clear (x y : Nat) : Framebuffer.clear.pixel x y = false := by
  unfold Framebuffer.pixel Framebuffer.clear
  split
  · rename_i row h
    simp only [Vector.getElem?_replicate] at h
    split at h
    · simp only [Option.some.injEq] at h
      subst h
      simp only [Vector.getElem?_replicate]
      split <;> rfl
    · simp at h
  · rfl

/-- Toggling a pixel inside the grid inverts it. -/
theorem Framebuffer.pixel_toggle_same (f : Framebuffer) {x y : Nat} (hx : x < 64) (hy : y < 32) :
    (f.toggle x y).pixel x y = !f.pixel x y := by
  simp [Framebuffer.toggle, Framebuffer.pixel, hx, hy]

/-- Toggling a pixel leaves every other pixel. -/
theorem Framebuffer.pixel_toggle_ne (f : Framebuffer) {x y p q : Nat} (h : ¬(x = p ∧ y = q)) :
    (f.toggle x y).pixel p q = f.pixel p q := by
  unfold Framebuffer.toggle
  split
  · rename_i row hrow
    by_cases hy : y = q
    · subst hy
      have hx : x ≠ p := fun e => h ⟨e, rfl⟩
      have hlt : y < 32 := by
        by_contra hn
        simp [Vector.getElem?_eq_none (by omega : 32 ≤ y)] at hrow
      simp only [Framebuffer.pixel, hrow, Vector.getElem?_setIfInBounds_self, hlt, if_true]
      simp [hx]
    · simp [Framebuffer.pixel, hy]
  · rfl

/-- Two grids that show alike are equal. -/
theorem Framebuffer.ext_pixel {f g : Framebuffer} (h : ∀ x y, x < 64 → y < 32 → f.pixel x y = g.pixel x y) : f = g := by
  apply Vector.ext
  intro y hy
  apply Vector.ext
  intro x hx
  have := h x y hx hy
  simpa [Framebuffer.pixel, hx, hy] using this

/-- The pixels of a hit: inside the grid the one pixel is inverted, outside nothing is (40_display.md R101). -/
theorem Canvas.pixel_hit (c : Canvas) (x y p q : Nat) (hp : p < 64) (hq : q < 32) :
    (c.hit x y).fb.pixel p q = if x = p ∧ y = q then !c.fb.pixel p q else c.fb.pixel p q := by
  unfold Canvas.hit
  by_cases h : x = p ∧ y = q
  · obtain ⟨rfl, rfl⟩ := h
    simp [hp, hq, Framebuffer.pixel_toggle_same]
  · split
    · simp [Framebuffer.pixel_toggle_ne _ h]
    · simp

/-- The collision of a hit: a pixel inside the grid that was on (40_display.md R102). -/
theorem Canvas.collided_hit (c : Canvas) (x y : Nat) :
    (c.hit x y).collided = (c.collided || (decide (x < 64 ∧ y < 32) && c.fb.pixel x y)) := by
  unfold Canvas.hit
  split <;> simp_all

end Sys2Proof.Machine
end

