-- ==== Sys2Proof/Laws/Memory.lean ====
section
/-! SUPPORT. The laws of memory: read after write, the canonical form and its preservation, ranges and bounds. -/

namespace Sys2Proof.Machine

/-- A canonical memory above `lo` is canonical above any lower address. -/
theorem Memory.wfFrom_mono {m : Memory} {lo lo' : Nat} (h : Memory.wfFrom lo m = true) (hl : lo' ≤ lo) :
    Memory.wfFrom lo' m = true := by
  cases m with
  | nil => rfl
  | cons c rest =>
    obtain ⟨k, b⟩ := c
    simp only [Memory.wfFrom, Bool.and_eq_true, decide_eq_true_eq] at h ⊢
    exact ⟨⟨⟨by omega, h.1.1.2⟩, h.1.2⟩, h.2⟩

/-- An address below a canonical memory's entries reads as unlisted. -/
theorem Memory.get_of_wfFrom {m : Memory} {lo a : Nat} (h : Memory.wfFrom lo m = true) (ha : a < lo) :
    m.get a = Memory.initial a := by
  induction m generalizing lo with
  | nil => rfl
  | cons c rest ih =>
    obtain ⟨k, b⟩ := c
    simp only [Memory.wfFrom, Bool.and_eq_true, decide_eq_true_eq] at h
    have hk : k ≠ a := by omega
    simp only [Memory.get, hk, if_false]
    exact ih h.2 (by omega)

/-- A write keeps the canonical form. -/
theorem Memory.wfFrom_put {m : Memory} {lo a : Nat} {b : Byte} (h : Memory.wfFrom lo m = true) (hl : lo ≤ a)
    (ha : a < 4096) : Memory.wfFrom lo (m.put a b) = true := by
  induction m generalizing lo with
  | nil =>
    by_cases hb : b = Memory.initial a <;> simp [Memory.put, Memory.wfFrom, hb, hl, ha]
  | cons c rest ih =>
    obtain ⟨k, d⟩ := c
    have h' := h
    simp only [Memory.wfFrom, Bool.and_eq_true, decide_eq_true_eq] at h'
    obtain ⟨⟨⟨h1, h2⟩, h3⟩, h4⟩ := h'
    simp only [Memory.put]
    split
    · split
      · exact h
      · rename_i hak hb
        simp only [Memory.wfFrom, Bool.and_eq_true, decide_eq_true_eq]
        exact ⟨⟨⟨hl, ha⟩, hb⟩, ⟨⟨by omega, h2⟩, h3⟩, h4⟩
    · split
      · rename_i hka
        subst hka
        split
        · exact Memory.wfFrom_mono h4 (by omega)
        · rename_i hb
          simp only [Memory.wfFrom, Bool.and_eq_true, decide_eq_true_eq]
          exact ⟨⟨⟨hl, ha⟩, hb⟩, h4⟩
      · simp only [Memory.wfFrom, Bool.and_eq_true, decide_eq_true_eq]
        exact ⟨⟨⟨h1, h2⟩, h3⟩, ih h4 (by omega)⟩

/-- A write keeps the canonical form of memory. -/
theorem Memory.wf_put {m : Memory} {a : Nat} {b : Byte} (h : m.wf = true) (ha : a < 4096) : (m.put a b).wf = true :=
  Memory.wfFrom_put h (Nat.zero_le a) ha

/-- A write leaves every other address alone. -/
theorem Memory.get_put_ne (m : Memory) {a c : Nat} (b : Byte) (h : a ≠ c) : (m.put a b).get c = m.get c := by
  induction m with
  | nil => by_cases hb : b = Memory.initial a <;> simp [Memory.put, Memory.get, hb, h]
  | cons e rest ih =>
    obtain ⟨k, d⟩ := e
    simp only [Memory.put]
    split
    · split <;> simp [Memory.get, h]
    · split
      · rename_i hka
        subst hka
        split <;> simp [Memory.get, h]
      · simp [Memory.get, ih]

/-- A read after a write to the same address gives the value written (20_memory.md R65). -/
theorem Memory.get_put_same {m : Memory} {lo a : Nat} {b : Byte} (h : Memory.wfFrom lo m = true) :
    (m.put a b).get a = b := by
  induction m generalizing lo with
  | nil => by_cases hb : b = Memory.initial a <;> simp [Memory.put, Memory.get, hb]
  | cons e rest ih =>
    obtain ⟨k, d⟩ := e
    have h' := h
    simp only [Memory.wfFrom, Bool.and_eq_true, decide_eq_true_eq] at h'
    simp only [Memory.put]
    split
    · rename_i hak
      split
      · rename_i hb
        have hka : k ≠ a := by omega
        simp only [Memory.get, hka, if_false, hb]
        exact Memory.get_of_wfFrom h'.2 (by omega)
      · simp [Memory.get]
    · split
      · rename_i hka
        subst hka
        split
        · rename_i hb
          rw [hb]
          exact Memory.get_of_wfFrom h'.2 (by omega)
        · simp [Memory.get]
      · rename_i hka
        simp only [Memory.get, hka, if_false]
        exact ih h'.2

/-- Writing a list of bytes keeps the canonical form. -/
theorem Memory.wf_putAll {m : Memory} {a : Nat} {bs : List Byte} (h : m.wf = true) (ha : a + bs.length ≤ 4096) :
    (m.putAll a bs).wf = true := by
  induction bs generalizing m a with
  | nil => exact h
  | cons b bs ih =>
    simp only [List.length_cons] at ha
    exact ih (Memory.wf_put h (by omega)) (by omega)

/-- Writing a list of bytes leaves every address outside its range alone. -/
theorem Memory.get_putAll_ne (m : Memory) {a c : Nat} (bs : List Byte) (h : c < a ∨ a + bs.length ≤ c) :
    (m.putAll a bs).get c = m.get c := by
  induction bs generalizing m a with
  | nil => rfl
  | cons b bs ih =>
    simp only [List.length_cons] at h
    rw [Memory.putAll, ih _ (by omega), Memory.get_put_ne _ _ (by omega)]

/-- Each byte of a written list reads back at its address. -/
theorem Memory.get_putAll {m : Memory} {a k : Nat} {bs : List Byte} (h : m.wf = true) (ha : a + bs.length ≤ 4096)
    (hk : k < bs.length) : (m.putAll a bs).get (a + k) = bs.getD k 0#8 := by
  induction bs generalizing m a k with
  | nil => simp at hk
  | cons b bs ih =>
    simp only [List.length_cons] at ha hk
    cases k with
    | zero =>
      rw [Memory.putAll, Memory.get_putAll_ne _ _ (by omega)]
      simpa using Memory.get_put_same (a := a) (b := b) (lo := 0) h
    | succ k =>
      have := ih (m := m.put a b) (a := a + 1) (k := k) (Memory.wf_put h (by omega)) (by omega) (by omega)
      rw [Memory.putAll, show a + (k + 1) = a + 1 + k by omega, this]
      simp

/-- A range holds as many bytes as asked for. -/
@[simp] theorem Memory.length_range (m : Memory) (a n : Nat) : (m.range a n).length = n := by
  induction n generalizing a with
  | zero => rfl
  | succ n ih => simp [Memory.range, ih]

/-- The `k`-th byte of a range is the byte at its address. -/
theorem Memory.getD_range (m : Memory) (a n k : Nat) (hk : k < n) : (m.range a n).getD k 0#8 = m.get (a + k) := by
  induction n generalizing a k with
  | zero => omega
  | succ n ih =>
    cases k with
    | zero => simp [Memory.range]
    | succ k =>
      have := ih (a + 1) k (by omega)
      simpa [Memory.range, show a + 1 + k = a + (k + 1) by omega] using this

/-- A written list reads back as a range. -/
theorem Memory.range_putAll {m : Memory} {a : Nat} {bs : List Byte} (h : m.wf = true) (ha : a + bs.length ≤ 4096) :
    (m.putAll a bs).range a bs.length = bs := by
  apply List.ext_getElem (by simp)
  intro k h1 h2
  have e1 := Memory.getD_range (m.putAll a bs) a bs.length k h2
  rw [Memory.get_putAll h ha h2] at e1
  simpa [List.getD_eq_getElem?_getD, h1, h2] using e1

/-- The bounds test as one inequality pair (20_memory.md R51). -/
theorem inBounds_iff (a n : Nat) : inBounds a n = true ↔ a ≤ 0xFFF ∧ 1 ≤ a + n ∧ a + n ≤ 0x1000 := by
  simp only [inBounds, Bool.and_eq_true, decide_eq_true_eq]
  omega

/-- Meeting the font region as inequalities (20_memory.md R57). -/
theorem meetsFont_iff (a n : Nat) : meetsFont a n = true ↔ 0 < n ∧ a < 0x0A0 ∧ 0x050 < a + n := by
  simp only [meetsFont, Bool.and_eq_true, decide_eq_true_eq]
  omega

/-- An allowed write lies inside memory. -/
theorem inBounds_of_mayWrite {c : Config} {a n : Nat} (h : mayWrite c a n = true) : inBounds a n = true := by
  simp only [mayWrite, Bool.and_eq_true] at h
  exact h.1

/-- A byte outside the font region before and after an allowed write under FONT_PROTECT (20_memory.md R57). -/
theorem get_putAll_font {c : Config} {m : Memory} {a k : Nat} {bs : List Byte} (h : mayWrite c a bs.length = true)
    (hp : c.fontProtect = true) (h1 : 0x050 ≤ k) (h2 : k < 0x0A0) : (m.putAll a bs).get k = m.get k := by
  apply Memory.get_putAll_ne
  by_contra hn
  simp only [mayWrite, hp, Bool.true_and, Bool.and_eq_true, Bool.not_eq_true', ← Bool.not_eq_true] at h
  exact h.2 ((meetsFont_iff _ _).2 (by omega))

end Sys2Proof.Machine
end

