-- ==== Sys2Proof/Laws/Operands.lean ====
section
/-! SUPPORT. What the shared operations of the instructions can do, each said once: the register guard, the register
block, the guarded store and load, and fault entry. -/

namespace Sys2Proof.Machine

/-- Register indices in range pass the guard (10_state.md R22). -/
theorem guardRegs_ok {rs : List Nat} (i : Instr) (s : State) (run : Result) (h : ∀ r ∈ rs, r < 16) :
    guardRegs rs i s run = run := by
  have : rs.all regOk = true := by simpa [List.all_eq_true, regOk] using h
  simp [guardRegs, this]

/-- A register index out of range raises InvalidRegister before any effect (10_state.md R22). -/
theorem guardRegs_bad {rs : List Nat} (i : Instr) (s : State) (run : Result) (h : ∃ r ∈ rs, 16 ≤ r) :
    guardRegs rs i s run = raise .invalidRegister i none s := by
  have : rs.all regOk = false := by
    obtain ⟨r, hr, h16⟩ := h
    simp only [List.all_eq_false]
    exact ⟨r, hr, by simp [regOk]; omega⟩
  simp [guardRegs, this]

/-- The guard in one equation. -/
theorem guardRegs_eq (rs : List Nat) (i : Instr) (s : State) (run : Result) :
    guardRegs rs i s run = run ∨ guardRegs rs i s run = raise .invalidRegister i none s := by
  unfold guardRegs
  split <;> simp

/-- One guarded register. -/
theorem guardRegs_one {x : Nat} (i : Instr) (s : State) (run : Result) (hx : x < 16) : guardRegs [x] i s run = run :=
  guardRegs_ok i s run (by simpa using hx)

/-- Two guarded registers. -/
theorem guardRegs_two {x y : Nat} (i : Instr) (s : State) (run : Result) (hx : x < 16) (hy : y < 16) :
    guardRegs [x, y] i s run = run :=
  guardRegs_ok i s run (by simp [hx, hy])

/-- Fault entry answers the state with the record stored and nothing else changed (60_exceptions.md R205). -/
theorem raise_eq (k : FaultKind) (i : Instr) (access : Option (Nat × Nat)) (s : State) :
    raise k i access s =
      .next (s.setFault { kind := k, addr := s.pc - 2#16, word := some (encode i), access := access }) := rfl

/-- An allowed store writes every byte and goes on. -/
theorem storeBytes_ok {i : Instr} {a : Nat} {bs : List Byte} {s : State} (rest : State → State)
    (h : mayWrite s.config a bs.length = true) :
    storeBytes i a bs s rest = .next (rest (s.setMem (s.mem.putAll a bs))) := by
  simp [storeBytes, h]

/-- A store that is not allowed raises OutOfBounds and writes nothing (20_memory.md R52). -/
theorem storeBytes_bad {i : Instr} {a : Nat} {bs : List Byte} {s : State} (rest : State → State)
    (h : mayWrite s.config a bs.length = false) :
    storeBytes i a bs s rest = raise .outOfBounds i (some (a, bs.length)) s := by
  simp [storeBytes, h]

/-- A load inside memory delivers its range and goes on. -/
theorem loadBytes_ok {i : Instr} {a n : Nat} {s : State} (rest : List Byte → State) (h : inBounds a n = true) :
    loadBytes i a n s rest = .next (rest (s.mem.range a n)) := by
  simp [loadBytes, memRead, h]

/-- A load outside memory raises OutOfBounds and delivers nothing (20_memory.md R52). -/
theorem loadBytes_bad {i : Instr} {a n : Nat} {s : State} (rest : List Byte → State) (h : inBounds a n = false) :
    loadBytes i a n s rest = raise .outOfBounds i (some (a, n)) s := by
  simp [loadBytes, memRead, h]

/-- A register block holds as many bytes as asked for. -/
@[simp] theorem State.length_block (s : State) (r n : Nat) : (s.block r n).length = n := by
  induction n generalizing r with
  | zero => rfl
  | succ n ih => simp [State.block, ih]

/-- The `k`-th byte of a register block is the register at its place. -/
theorem State.getD_block (s : State) (r n k : Nat) (hk : k < n) : (s.block r n).getD k 0#8 = s.getV (r + k) := by
  induction n generalizing r k with
  | zero => omega
  | succ n ih =>
    cases k with
    | zero => simp [State.block]
    | succ k =>
      have := ih (r + 1) k (by omega)
      simpa [State.block, show r + 1 + k = r + (k + 1) by omega] using this

/-- Loading a block changes nothing but the register file. -/
theorem State.loadBlock_eq (s : State) (r : Nat) (bs : List Byte) :
    s.loadBlock r bs = { s with v := (s.loadBlock r bs).v } := by
  induction bs generalizing s r with
  | nil => rfl
  | cons b bs ih =>
    rw [State.loadBlock]
    exact ih (s.setV r b) (r + 1)

/-- Loading a block leaves the registers before it and after it. -/
theorem State.getV_loadBlock_ne (s : State) (r q : Nat) (bs : List Byte) (h : q < r ∨ r + bs.length ≤ q) :
    (s.loadBlock r bs).getV q = s.getV q := by
  induction bs generalizing s r with
  | nil => rfl
  | cons b bs ih =>
    simp only [List.length_cons] at h
    rw [State.loadBlock, ih _ _ (by omega), State.getV_setV_ne _ _ _ _ (by omega)]

/-- Loading a block puts its `k`-th byte in the `k`-th register from the start. -/
theorem State.getV_loadBlock (s : State) (r k : Nat) (bs : List Byte) (hr : r + bs.length ≤ 16) (hk : k < bs.length) :
    (s.loadBlock r bs).getV (r + k) = bs.getD k 0#8 := by
  induction bs generalizing s r k with
  | nil => simp at hk
  | cons b bs ih =>
    simp only [List.length_cons] at hr hk
    cases k with
    | zero =>
      rw [State.loadBlock, State.getV_loadBlock_ne _ _ _ _ (by omega)]
      simpa using State.getV_setV_same s r b (by omega)
    | succ k =>
      have := ih (s.setV r b) (r + 1) k (by omega) (by omega)
      rw [State.loadBlock, show r + (k + 1) = r + 1 + k by omega, this]
      simp

/-- The quirk's increment changes nothing but the index register. -/
theorem State.stepIndex_eq (s : State) (n : Nat) :
    s.stepIndex n = s.setIdx (if s.config.storeLoadIncrementsIndex then wrapIndex s.idx n else s.idx) := by
  unfold State.stepIndex
  split <;> rfl

/-- Index arithmetic stays within 12 bits (43_index_memory.md R176). -/
theorem wrapIndex_toNat (i : Word) (k : Nat) : (wrapIndex i k).toNat = (i.toNat + k) % 0x1000 := by
  simp only [wrapIndex, BitVec.toNat_ofNat]
  omega

/-- The three decimal digits (43_index_memory.md R173). -/
@[simp] theorem length_decimalDigits (b : Byte) : (decimalDigits b).length = 3 := rfl

end Sys2Proof.Machine
end

