-- ==== Sys2Proof/Laws/PerInstr.lean ====
section
/-! SUPPORT. Per instruction: the encoder's word lies in the instruction's own row of the opcode table
(30_encoding.md R81), whatever its operands. -/

namespace Sys2Proof.Laws.FixedBits

open Sys2Proof

/-- The instruction's row is in the table and its word selects that row. -/
def Statement (i : Instr) : Prop := i.row ∈ opcodeTable ∧ i.row.selects (encode i) = true

theorem op00E0 : Statement (.op00E0) := by
  exact ⟨by decide, by decide⟩
theorem op00EE : Statement (.op00EE) := by
  exact ⟨by decide, by decide⟩
theorem op1NNN (nnn : Addr12) : Statement (.op1NNN nnn) := by
  refine ⟨by simp [Instr.row, opcodeTable], ?_⟩
  have h : wordNNN 0x1#4 nnn &&& 0xF000#16 = 0x1000#16 := by
    rw [show (0xF000#16 : Word) = wordNNN 0xF#4 0#12 from rfl, wordNNN_and, BitVec.and_zero]
    rfl
  simpa [Row.selects, Instr.row, encode] using h
theorem op2NNN (nnn : Addr12) : Statement (.op2NNN nnn) := by
  refine ⟨by simp [Instr.row, opcodeTable], ?_⟩
  have h : wordNNN 0x2#4 nnn &&& 0xF000#16 = 0x2000#16 := by
    rw [show (0xF000#16 : Word) = wordNNN 0xF#4 0#12 from rfl, wordNNN_and, BitVec.and_zero]
    rfl
  simpa [Row.selects, Instr.row, encode] using h
theorem op3XNN (x : Nat) (nn : Byte) : Statement (.op3XNN x nn) := by
  refine ⟨by simp [Instr.row, opcodeTable], ?_⟩
  simp only [Row.selects, Instr.row, encode, wordXNN_and_family]
  decide
theorem op4XNN (x : Nat) (nn : Byte) : Statement (.op4XNN x nn) := by
  refine ⟨by simp [Instr.row, opcodeTable], ?_⟩
  simp only [Row.selects, Instr.row, encode, wordXNN_and_family]
  decide
theorem op5XY0 (x : Nat) (y : Nat) : Statement (.op5XY0 x y) := by
  refine ⟨by simp [Instr.row, opcodeTable], ?_⟩
  simp only [Row.selects, Instr.row, encode, wordXYN_and_low]
  decide
theorem op6XNN (x : Nat) (nn : Byte) : Statement (.op6XNN x nn) := by
  refine ⟨by simp [Instr.row, opcodeTable], ?_⟩
  simp only [Row.selects, Instr.row, encode, wordXNN_and_family]
  decide
theorem op7XNN (x : Nat) (nn : Byte) : Statement (.op7XNN x nn) := by
  refine ⟨by simp [Instr.row, opcodeTable], ?_⟩
  simp only [Row.selects, Instr.row, encode, wordXNN_and_family]
  decide
theorem op8XY0 (x : Nat) (y : Nat) : Statement (.op8XY0 x y) := by
  refine ⟨by simp [Instr.row, opcodeTable], ?_⟩
  simp only [Row.selects, Instr.row, encode, wordXYN_and_low]
  decide
theorem op8XY1 (x : Nat) (y : Nat) : Statement (.op8XY1 x y) := by
  refine ⟨by simp [Instr.row, opcodeTable], ?_⟩
  simp only [Row.selects, Instr.row, encode, wordXYN_and_low]
  decide
theorem op8XY2 (x : Nat) (y : Nat) : Statement (.op8XY2 x y) := by
  refine ⟨by simp [Instr.row, opcodeTable], ?_⟩
  simp only [Row.selects, Instr.row, encode, wordXYN_and_low]
  decide
theorem op8XY3 (x : Nat) (y : Nat) : Statement (.op8XY3 x y) := by
  refine ⟨by simp [Instr.row, opcodeTable], ?_⟩
  simp only [Row.selects, Instr.row, encode, wordXYN_and_low]
  decide
theorem op8XY4 (x : Nat) (y : Nat) : Statement (.op8XY4 x y) := by
  refine ⟨by simp [Instr.row, opcodeTable], ?_⟩
  simp only [Row.selects, Instr.row, encode, wordXYN_and_low]
  decide
theorem op8XY5 (x : Nat) (y : Nat) : Statement (.op8XY5 x y) := by
  refine ⟨by simp [Instr.row, opcodeTable], ?_⟩
  simp only [Row.selects, Instr.row, encode, wordXYN_and_low]
  decide
theorem op8XY6 (x : Nat) (y : Nat) : Statement (.op8XY6 x y) := by
  refine ⟨by simp [Instr.row, opcodeTable], ?_⟩
  simp only [Row.selects, Instr.row, encode, wordXYN_and_low]
  decide
theorem op8XY7 (x : Nat) (y : Nat) : Statement (.op8XY7 x y) := by
  refine ⟨by simp [Instr.row, opcodeTable], ?_⟩
  simp only [Row.selects, Instr.row, encode, wordXYN_and_low]
  decide
theorem op8XYE (x : Nat) (y : Nat) : Statement (.op8XYE x y) := by
  refine ⟨by simp [Instr.row, opcodeTable], ?_⟩
  simp only [Row.selects, Instr.row, encode, wordXYN_and_low]
  decide
theorem op9XY0 (x : Nat) (y : Nat) : Statement (.op9XY0 x y) := by
  refine ⟨by simp [Instr.row, opcodeTable], ?_⟩
  simp only [Row.selects, Instr.row, encode, wordXYN_and_low]
  decide
theorem opANNN (nnn : Addr12) : Statement (.opANNN nnn) := by
  refine ⟨by simp [Instr.row, opcodeTable], ?_⟩
  have h : wordNNN 0xA#4 nnn &&& 0xF000#16 = 0xA000#16 := by
    rw [show (0xF000#16 : Word) = wordNNN 0xF#4 0#12 from rfl, wordNNN_and, BitVec.and_zero]
    rfl
  simpa [Row.selects, Instr.row, encode] using h
theorem opCXNN (x : Nat) (nn : Byte) : Statement (.opCXNN x nn) := by
  refine ⟨by simp [Instr.row, opcodeTable], ?_⟩
  simp only [Row.selects, Instr.row, encode, wordXNN_and_family]
  decide
theorem opDXYN (x : Nat) (y : Nat) (n : Nat) : Statement (.opDXYN x y n) := by
  refine ⟨by simp [Instr.row, opcodeTable], ?_⟩
  simp only [Row.selects, Instr.row, encode, wordXYN_and_family]
  decide
theorem opFX07 (x : Nat) : Statement (.opFX07 x) := by
  refine ⟨by simp [Instr.row, opcodeTable], ?_⟩
  simp only [Row.selects, Instr.row, encode, wordXNN_and_low]
  decide
theorem opFX15 (x : Nat) : Statement (.opFX15 x) := by
  refine ⟨by simp [Instr.row, opcodeTable], ?_⟩
  simp only [Row.selects, Instr.row, encode, wordXNN_and_low]
  decide
theorem opFX1E (x : Nat) : Statement (.opFX1E x) := by
  refine ⟨by simp [Instr.row, opcodeTable], ?_⟩
  simp only [Row.selects, Instr.row, encode, wordXNN_and_low]
  decide
theorem opFX29 (x : Nat) : Statement (.opFX29 x) := by
  refine ⟨by simp [Instr.row, opcodeTable], ?_⟩
  simp only [Row.selects, Instr.row, encode, wordXNN_and_low]
  decide
theorem opFX33 (x : Nat) : Statement (.opFX33 x) := by
  refine ⟨by simp [Instr.row, opcodeTable], ?_⟩
  simp only [Row.selects, Instr.row, encode, wordXNN_and_low]
  decide
theorem opFX55 (x : Nat) : Statement (.opFX55 x) := by
  refine ⟨by simp [Instr.row, opcodeTable], ?_⟩
  simp only [Row.selects, Instr.row, encode, wordXNN_and_low]
  decide
theorem opFX65 (x : Nat) : Statement (.opFX65 x) := by
  refine ⟨by simp [Instr.row, opcodeTable], ?_⟩
  simp only [Row.selects, Instr.row, encode, wordXNN_and_low]
  decide

end Sys2Proof.Laws.FixedBits
end

