-- ==== Sys2Proof/Laws/Step.lean ====
section
/-! SUPPORT. What a step can do, said once: the ends of a run, the performed action, the tick. -/

namespace Sys2Proof.Machine

/-- Fetching reads the two bytes at the pc, the first one high (20_memory.md R59, R60). -/
theorem fetch_eq (s : State) :
    fetch s = if s.pc.toNat + 1 ≤ 0xFFF then some (joinBytes (s.mem.get s.pc.toNat) (s.mem.get (s.pc.toNat + 1)))
      else none := by
  have h : inBounds s.pc.toNat 2 = decide (s.pc.toNat + 1 ≤ 0xFFF) := by
    rw [Bool.eq_iff_iff, inBounds_iff, decide_eq_true_eq]; omega
  simp [fetch, memRead16, h]

/-- A tick whose fetch succeeds runs the fetched word with the pc advanced. -/
theorem tick_of_fetch {s : State} {w : Word} (h : fetch s = some w) : tick s = runWord w s.advancePc := by
  simp [tick, h]

/-- A word that decodes runs its instruction. -/
theorem runWord_of_decode {w : Word} {i : Instr} (s : State) (h : decode w = .ok i) : runWord w s = exec i s := by
  simp [runWord, h]

/-- A running state's step performs the chosen action. -/
theorem step_of_running {s : State} (h : s.Running) : step s = perform s.nextAction s.afterChoice := by
  obtain ⟨h1, h2, h3⟩ := h
  simp [step, stepOnce, h1, h2, h3, runningStep, State.nextAction, State.afterChoice]

/-- With no stop to come the scheduler takes its next turn (60_exceptions.md R220, R221). -/
theorem choose_of_noStop (c : Config) (d : Scheduler) (h : d.stopAfter = none) :
    choose c d = ((takeTurn c d.agenda d.acc).1, d.afterTurn c none) := by
  simp [choose, h]

/-- A stop whose moment has come is the next step, and the other data stay (60_exceptions.md R225). -/
theorem choose_of_stopNow (c : Config) (d : Scheduler) (h : d.stopAfter = some 0) :
    choose c d = (.stop, { d with stopAfter := none }) := by
  simp [choose, h]

/-- A stop still to come leaves the next turn as it is and draws one step nearer. -/
theorem choose_of_stopLater (c : Config) (d : Scheduler) (k : Nat) (h : d.stopAfter = some (k + 1)) :
    choose c d = ((takeTurn c d.agenda d.acc).1, d.afterTurn c (some k)) := by
  simp [choose, h]

/-- Everything a step that answers a next state can do: the final render of a halted run, or a chosen atomic step of a
running one. -/
theorem step_next_cases {s t : State} (h : step s = .next t) :
    (s.fault = none ∧ s.stopped = false ∧ s.halted = true ∧ s.finalRenderDone = false ∧
      t = s.emitRender.setFinalRenderDone) ∨
    (s.Running ∧ perform s.nextAction s.afterChoice = .next t) := by
  by_cases hf : s.fault = none
  · by_cases hst : s.stopped = true
    · simp [step, stepOnce, hf, hst] at h
    · by_cases hh : s.halted = true
      · by_cases hd : s.finalRenderDone = true
        · simp [step, stepOnce, hf, hst, hh, hd] at h
        · refine .inl ⟨hf, by simpa using hst, hh, by simpa using hd, ?_⟩
          simpa [step, stepOnce, hf, hst, hh, hd] using h.symm
      · have hr : s.Running := ⟨hf, by simpa using hst, by simpa using hh⟩
        exact .inr ⟨hr, by rw [← step_of_running hr]; exact h⟩
  · obtain ⟨r, hr⟩ := Option.ne_none_iff_exists'.1 hf
    simp [step, stepOnce, hr] at h

/-- Everything a tick can do: a fetch fault, an illegal word, or one instruction at the advanced pc. -/
theorem tick_cases (s : State) :
    (fetch s = none ∧ tick s = raiseFetch s) ∨
    (∃ w, fetch s = some w ∧ (∃ e, decode w = .error e) ∧
      tick s = raiseWith .unimplementedInstruction w none s.advancePc) ∨
    (∃ w i, fetch s = some w ∧ decode w = .ok i ∧ tick s = exec i s.advancePc) := by
  cases hf : fetch s with
  | none => exact .inl ⟨rfl, by simp [tick, hf]⟩
  | some w =>
    cases hd : decode w with
    | error e => exact .inr (.inl ⟨w, rfl, ⟨e, hd⟩, by simp [tick, hf, runWord, hd]⟩)
    | ok i => exact .inr (.inr ⟨w, i, rfl, hd, by simp [tick, hf, runWord, hd]⟩)

end Sys2Proof.Machine
end

