-- ==== Sys2Proof/Tests/Slice0.lean ====
section
/-! SUPPORT. Tests on small states, each about one step; every expected value is from the spec's own vectors
(95_test_vectors.md, named W or T in the comment) or its rules' examples, and the words are written out from the encodings of
30_encoding.md R81. -/

namespace Sys2Proof.Tests

open Sys2Proof.Machine

/-! ## Helpers -/

/-- The reset state with registers set, as index and value pairs. -/
def withRegs (rs : List (Nat × Byte)) : State := rs.foldl (fun s r => s.setV r.1 r.2) State.reset

/-- One step on the given word, placed at the pc. -/
def after (s : State) (w : Nat) : Option State :=
  match step (s.withFetchWord 16 w) with
  | .next t => some t
  | _ => none

/-- Registers after one step on a word. -/
def regsAfter (s : State) (w : Nat) (rs : List Nat) : Option (List Byte) := (after s w).map fun t => rs.map t.getV

/-- The index register and some registers after one step on a word. -/
def idxAfter (s : State) (w : Nat) (rs : List Nat) : Option (Word × List Byte) :=
  (after s w).map fun t => (t.idx, rs.map t.getV)

/-- The fault record, the pc and VF after one step on a word. -/
def faultAfter (s : State) (w : Nat) : Option (Option FaultRecord × Word × Byte) :=
  (after s w).map fun t => (t.fault, t.pc, t.getV 15)

/-- Some pixels and VF after one step on a word. -/
def pixelsAfter (s : State) (w : Nat) (ps : List (Nat × Nat)) : Option (List Bool × Byte) :=
  (after s w).map fun t => (ps.map fun p => t.fb.pixel p.1 p.2, t.getV 15)

/-- Memory bytes and the index register after one step on a word. -/
def bytesAfter (s : State) (w : Nat) (a n : Nat) : Option (List Byte × Word) :=
  (after s w).map fun t => (t.mem.range a n, t.idx)

/-- The default configuration with all three quirks turned the other way (10_state.md R32). -/
def flippedQuirks : Config :=
  { Config.standard with shiftLoadsY := true, indexOverflowFlag := false, storeLoadIncrementsIndex := true }

/-! ## Well-formedness: each check refuses an ill-formed term (10_state.md R22, 30_encoding.md R82) -/

theorem test_wf_x : (Instr.op6XNN 16 0#8).wf = false := by decide
theorem test_wf_y : (Instr.op8XY0 0 16).wf = false := by decide
theorem test_wf_n : (Instr.opDXYN 0 0 16).wf = false := by decide
theorem test_wf_accepts : (Instr.opDXYN 15 15 15).wf = true := by decide

/-! ## Decoding: one word for every constructor, written from 30_encoding.md R81 -/

theorem test_decode_00E0 : decode 0x00E0#16 = .ok .op00E0 := by decide
theorem test_decode_00EE : decode 0x00EE#16 = .ok .op00EE := by decide
theorem test_decode_1NNN : decode 0x1ABC#16 = .ok (.op1NNN 0xABC#12) := by decide
theorem test_decode_2NNN : decode 0x2ABC#16 = .ok (.op2NNN 0xABC#12) := by decide
theorem test_decode_3XNN : decode 0x3A5C#16 = .ok (.op3XNN 0xA 0x5C#8) := by decide
theorem test_decode_4XNN : decode 0x4A5C#16 = .ok (.op4XNN 0xA 0x5C#8) := by decide
theorem test_decode_5XY0 : decode 0x5AB0#16 = .ok (.op5XY0 0xA 0xB) := by decide
theorem test_decode_6XNN : decode 0x6A7B#16 = .ok (.op6XNN 0xA 0x7B#8) := by decide
theorem test_decode_7XNN : decode 0x7A7B#16 = .ok (.op7XNN 0xA 0x7B#8) := by decide
theorem test_decode_8XY0 : decode 0x8AB0#16 = .ok (.op8XY0 0xA 0xB) := by decide
theorem test_decode_8XY1 : decode 0x8AB1#16 = .ok (.op8XY1 0xA 0xB) := by decide
theorem test_decode_8XY2 : decode 0x8AB2#16 = .ok (.op8XY2 0xA 0xB) := by decide
theorem test_decode_8XY3 : decode 0x8AB3#16 = .ok (.op8XY3 0xA 0xB) := by decide
theorem test_decode_8XY4 : decode 0x8AB4#16 = .ok (.op8XY4 0xA 0xB) := by decide
theorem test_decode_8XY5 : decode 0x8AB5#16 = .ok (.op8XY5 0xA 0xB) := by decide
theorem test_decode_8XY6 : decode 0x8AB6#16 = .ok (.op8XY6 0xA 0xB) := by decide
theorem test_decode_8XY7 : decode 0x8AB7#16 = .ok (.op8XY7 0xA 0xB) := by decide
theorem test_decode_8XYE : decode 0x8ABE#16 = .ok (.op8XYE 0xA 0xB) := by decide
theorem test_decode_9XY0 : decode 0x9AB0#16 = .ok (.op9XY0 0xA 0xB) := by decide
theorem test_decode_ANNN : decode 0xA300#16 = .ok (.opANNN 0x300#12) := by decide
theorem test_decode_CXNN : decode 0xC10F#16 = .ok (.opCXNN 1 0x0F#8) := by decide
theorem test_decode_DXYN : decode 0xDAB7#16 = .ok (.opDXYN 0xA 0xB 7) := by decide
theorem test_decode_FX07 : decode 0xF307#16 = .ok (.opFX07 3) := by decide
theorem test_decode_FX15 : decode 0xF315#16 = .ok (.opFX15 3) := by decide
theorem test_decode_FX1E : decode 0xF11E#16 = .ok (.opFX1E 1) := by decide
theorem test_decode_FX29 : decode 0xF229#16 = .ok (.opFX29 2) := by decide
theorem test_decode_FX33 : decode 0xFA33#16 = .ok (.opFX33 0xA) := by decide
theorem test_decode_FX55 : decode 0xFA55#16 = .ok (.opFX55 0xA) := by decide
theorem test_decode_FX65 : decode 0xF165#16 = .ok (.opFX65 1) := by decide
/-- T4 to T10: words without a row. -/
theorem test_decode_illegal :
    [0x0000#16, 0x0123#16, 0x00E1#16, 0x5121#16, 0x9121#16, 0x8128#16, 0x800F#16, 0xB123#16, 0xE19E#16, 0xE1A1#16,
      0xF10A#16, 0xF118#16].all (fun w => (decode w).toOption.isNone) = true := by decide
theorem test_decode_bytes : decodeBytes [0x61#8, 0x05#8, 0x80#8] = .ok (.op6XNN 1 5#8, [0x80#8]) := by decide
theorem test_decode_truncated : decodeBytes [0x61#8] = .error .truncated := by decide
theorem test_table_word : decodeTableWord 16 0xF065 = some (.opFX65 0) := by decide

/-! ## Fetch and faults -/

/-- T1. -/
theorem test_fetch_top : (step { State.reset with pc := 0xFFF#16 }) =
    .next { State.reset with pc := 0xFFF#16, fault := some ⟨.outOfBounds, 0xFFF#16, none, some (0xFFF, 2)⟩ } := by rfl
/-- T3: an odd pc. -/
theorem test_fetch_odd :
    (after { State.reset with pc := 0x201#16 } 0x6011).map (fun t => (t.getV 0, t.pc)) = some (0x11#8, 0x203#16) := by
  decide
/-- T130: the empty image. -/
theorem test_illegal_word : faultAfter State.reset 0x0000 =
    some (some ⟨.unimplementedInstruction, 0x200#16, some 0#16, none⟩, 0x202#16, 0#8) := by decide
/-- T40. -/
theorem test_00EE_empty : faultAfter State.reset 0x00EE =
    some (some ⟨.stackUnderflow, 0x200#16, some 0x00EE#16, none⟩, 0x202#16, 0#8) := by decide
/-- T125. -/
theorem test_faulted_stops :
    step { State.reset with fault := some ⟨.stackUnderflow, 0x200#16, some 0x00EE#16, none⟩ } =
      .fault (.runFaulted ⟨.stackUnderflow, 0x200#16, some 0x00EE#16, none⟩) := by rfl
/-- 10_state.md R22: the guard. -/
theorem test_invalid_register : exec (.op6XNN 16 7#8) State.reset =
    .next { State.reset with fault := some ⟨.invalidRegister, 0x1FE#16, some 0x6007#16, none⟩ } := by rfl

/-! ## Display -/

/-- W8. -/
theorem test_00E0 :
    (after { withRegs [(0, 0x12#8)] with fb := Framebuffer.clear.toggle 5 5, mem := [(0x300, 0x34#8)] } 0x00E0).map
      (fun t => (t.fb.pixel 5 5, t.getV 0, t.mem.get 0x300, t.pc, t.renders.length)) =
    some (false, 0x12#8, 0x34#8, 0x202#16, 1) := by decide
/-- T22: clipped at the right edge. -/
theorem test_DXYN_clip :
    pixelsAfter { withRegs [(0, 0x3C#8)] with idx := 0x300#16, mem := [(0x300, 0xFF#8)] } 0xD011
      [(59, 0), (60, 0), (63, 0), (0, 0), (3, 0), (0, 1)] = some ([false, true, true, false, false, false], 0#8) := by
  decide
/-- T21: the start wraps; the second draw of T29's kind erases and collides. -/
theorem test_DXYN_wrap_collide :
    pixelsAfter { withRegs [(0, 0x46#8), (1, 0x23#8)] with
        idx := 0x300#16, mem := [(0x300, 0xC0#8)], fb := Framebuffer.clear.toggle 6 3 } 0xD011
      [(6, 3), (7, 3), (8, 3)] = some ([false, true, false], 1#8) := by decide
/-- T25. -/
theorem test_DXYN_zero : faultAfter (withRegs [(15, 9#8)]) 0xD010 =
    some (some ⟨.outOfBounds, 0x200#16, some 0xD010#16, some (0, 0)⟩, 0x202#16, 9#8) := by decide
/-- T24. -/
theorem test_DXYN_no_rows :
    (after { withRegs [(15, 1#8)] with idx := 0x300#16 } 0xD010).map (fun t => (t.getV 15, t.renders.length)) =
      some (0#8, 1) := by decide

/-! ## Control -/

/-- W9, first tick. -/
theorem test_2NNN :
    (after State.reset 0x2300).map (fun t => (t.stack, t.pc)) = some ([0x202#16], 0x300#16) := by decide
/-- T45: a full stack. -/
theorem test_2NNN_full :
    (after { State.reset with stack := [0x202#16, 0x202#16], config := { Config.standard with stackCap := some 2 } }
      0x2200).map (fun t => (t.fault.map (·.kind), t.stack.length, t.pc)) =
      some (some .stackOverflow, 2, 0x202#16) := by decide
/-- W9, second tick. -/
theorem test_00EE :
    (after { State.reset with pc := 0x300#16, stack := [0x202#16, 0x208#16] } 0x00EE).map (fun t => (t.stack, t.pc)) =
      some ([0x208#16], 0x202#16) := by decide
/-- T42. -/
theorem test_1NNN_halts :
    (after State.reset 0x1200).map (fun t => (t.halted, t.pc, t.renders.length)) = some (true, 0x200#16, 0) := by decide
/-- T43. -/
theorem test_1NNN_spins :
    (after { State.reset with config := { Config.standard with haltOnSelfJump := false } } 0x1200).map
      (fun t => (t.halted, t.pc)) = some (false, 0x200#16) := by decide
/-- T47, T48. -/
theorem test_3XNN : ([0x3342, 0x3341].map fun w => (after (withRegs [(3, 0x42#8)]) w).map (·.pc)) =
    [some 0x204#16, some 0x202#16] := by decide
theorem test_4XNN : ([0x4342, 0x4300].map fun w => (after (withRegs [(3, 0x42#8)]) w).map (·.pc)) =
    [some 0x202#16, some 0x204#16] := by decide
/-- T49. -/
theorem test_5XY0 : (after (withRegs [(1, 7#8), (2, 7#8)]) 0x5120).map (·.pc) = some 0x204#16 := by decide
theorem test_9XY0 : ([7#8, 8#8].map fun b => (after (withRegs [(1, 7#8), (2, b)]) 0x9120).map (·.pc)) =
    [some 0x202#16, some 0x204#16] := by decide

/-! ## Registers -/

/-- W1, W2, T60 to T62. -/
theorem test_6XNN : regsAfter State.reset 0x6A7B [0xA, 15] = some [0x7B#8, 0#8] := by decide
theorem test_7XNN : regsAfter (withRegs [(3, 0xFF#8), (15, 0xAA#8)]) 0x7301 [3, 15] = some [0#8, 0xAA#8] := by decide
theorem test_8XY0 : regsAfter (withRegs [(2, 0x55#8)]) 0x8120 [1, 2] = some [0x55#8, 0x55#8] := by decide
theorem test_8XY1 : regsAfter (withRegs [(1, 0xF0#8), (2, 0x0F#8), (15, 7#8)]) 0x8121 [1, 15] = some [0xFF#8, 7#8] := by
  decide
theorem test_8XY2 : regsAfter (withRegs [(1, 0xF0#8), (2, 0x3C#8)]) 0x8122 [1, 2] = some [0x30#8, 0x3C#8] := by decide
theorem test_8XY3 : regsAfter (withRegs [(1, 0xF0#8), (2, 0x3C#8)]) 0x8123 [1, 2] = some [0xCC#8, 0x3C#8] := by decide
/-- W3, T80. -/
theorem test_8XY4 : regsAfter (withRegs [(1, 0xFE#8), (2, 2#8)]) 0x8124 [1, 15] = some [0#8, 1#8] := by decide
theorem test_8XY4_vf : regsAfter (withRegs [(15, 0xFF#8), (1, 2#8)]) 0x8F14 [15] = some [3#8] := by decide
/-- W4, T83. -/
theorem test_8XY5 : regsAfter (withRegs [(1, 1#8), (2, 2#8)]) 0x8125 [1, 15] = some [0xFF#8, 0#8] := by decide
theorem test_8XY5_vf : regsAfter (withRegs [(1, 0x10#8), (15, 3#8)]) 0x81F5 [1, 15] = some [0x0F#8, 1#8] := by decide
/-- T65, T85. -/
theorem test_8XY7 : regsAfter (withRegs [(1, 5#8), (2, 3#8)]) 0x8127 [1, 15] = some [0xFE#8, 0#8] := by decide
theorem test_8XY7_vf : regsAfter (withRegs [(1, 0x10#8), (15, 3#8)]) 0x81F7 [1, 15] = some [0xF0#8, 0#8] := by decide
/-- T67, T68. -/
theorem test_8XY6 : regsAfter (withRegs [(1, 1#8)]) 0x8106 [1, 15] = some [0#8, 1#8] := by decide
theorem test_8XY6_quirk : regsAfter { withRegs [(2, 0x81#8)] with config := flippedQuirks } 0x8126 [1, 2, 15] =
    some [0x40#8, 0x81#8, 1#8] := by decide
/-- T71, T87. -/
theorem test_8XYE : regsAfter (withRegs [(1, 2#8), (2, 0x81#8)]) 0x812E [1, 15] = some [4#8, 0#8] := by decide
theorem test_8XYE_vf : regsAfter (withRegs [(15, 0x81#8)]) 0x8F0E [15] = some [2#8] := by decide
/-- T74, T75. -/
theorem test_CXNN :
    (after { State.reset with rng := ⟨[0xA7#8, 0x11#8], 0, 0⟩ } 0xC10F).map (fun t => (t.getV 1, t.rng)) =
      some (7#8, ⟨[0x11#8], 0, 1⟩) := by decide

/-! ## Index register and memory -/

/-- T100. -/
theorem test_ANNN : idxAfter State.reset 0xA300 [] = some (0x300#16, []) := by decide
/-- W10, T101. -/
theorem test_FX1E : idxAfter { withRegs [(1, 1#8)] with idx := 0xFFF#16 } 0xF11E [15] = some (0#16, [1#8]) := by decide
theorem test_FX1E_quirk : idxAfter { withRegs [(1, 1#8), (15, 7#8)] with idx := 0xFFF#16, config := flippedQuirks }
    0xF11E [15] = some (0#16, [7#8]) := by decide
/-- T104. -/
theorem test_FX29 : idxAfter (withRegs [(0, 0x0F#8)]) 0xF029 [] = some (0x09B#16, []) := by decide
/-- W5, T107. -/
theorem test_FX33 : bytesAfter { withRegs [(0, 213#8)] with idx := 0x300#16 } 0xF033 0x300 3 =
    some ([2#8, 1#8, 3#8], 0x300#16) := by decide
theorem test_FX33_out : faultAfter { withRegs [(0, 213#8)] with idx := 0xFFE#16 } 0xF033 =
    some (some ⟨.outOfBounds, 0x200#16, some 0xF033#16, some (0xFFE, 3)⟩, 0x202#16, 0#8) := by decide
/-- T111, T109. -/
theorem test_FX55 : bytesAfter { withRegs [(0, 1#8), (1, 2#8)] with idx := 0x300#16 } 0xF155 0x300 3 =
    some ([1#8, 2#8, 0#8], 0x300#16) := by decide
theorem test_FX55_quirk : bytesAfter { withRegs [(0, 9#8)] with idx := 0xFFF#16, config := flippedQuirks } 0xF055 0xFFF 1 =
    some ([9#8], 0#16) := by decide
/-- T113. -/
theorem test_font_protect :
    faultAfter { State.reset with idx := 0x050#16, config := { Config.standard with fontProtect := true } } 0xF033 =
      some (some ⟨.outOfBounds, 0x200#16, some 0xF033#16, some (0x050, 3)⟩, 0x202#16, 0#8) := by decide
/-- T112: the default FONT. -/
theorem test_FX65 : idxAfter { State.reset with idx := 0x050#16 } 0xFF65 [0, 1, 5, 6, 14, 15] =
    some (0x050#16, [0xF0#8, 0x90#8, 0x20#8, 0x60#8, 0xF0#8, 0xF0#8]) := by decide
theorem test_FX65_above : regsAfter { withRegs [(3, 0x44#8)] with idx := 0x300#16, mem := [(0x301, 2#8)] } 0xF265
    [0, 1, 2, 3] = some [0#8, 2#8, 0#8, 0x44#8] := by decide

/-! ## Timer, scheduler, ends of a run -/

/-- T122, T123. -/
theorem test_FX07 : regsAfter { State.reset with dt := 0x3C#8 } 0xF307 [3] = some [0x3C#8] := by decide
theorem test_FX15 : (after (withRegs [(3, 0x3C#8)]) 0xF315).map (·.dt) = some 0x3C#8 := by decide
/-- T120, T121. -/
theorem test_timer_decay : ([0#8, 1#8, 0x3C#8].map fun b => ({ State.reset with dt := b } : State).timerDecay.dt) =
    [0#8, 0#8, 0x3B#8] := by decide
/-- T124: a free Refresh. -/
theorem test_refresh : step { State.reset with sched := ⟨⟨0, 0, 0⟩, [.act .refresh], none⟩ } =
    .next { State.reset with renders := [Framebuffer.clear] } := by rfl
/-- T127: the host's stop before any tick. -/
theorem test_stop : step { State.reset with sched := ⟨⟨0, 0, 0⟩, [.act .stop], none⟩ } =
    .next { State.reset with stopped := true } := by rfl
/-- 60_exceptions.md R221: the host's stop ends an iteration before its second tick. -/
theorem test_stop_in_iteration :
    step { State.reset with sched := ⟨⟨6, 0, 0⟩, [.iteration .cpuLoop 12], some 0⟩ } =
      .next { State.reset with sched := ⟨⟨6, 0, 0⟩, [.iteration .cpuLoop 12], none⟩, stopped := true } := by rfl
theorem test_stopped_stops : step { State.reset with stopped := true } = .fault .runStopped := by rfl
/-- T126: exactly one final render. -/
theorem test_final_render : step { State.reset with halted := true } =
    .next { State.reset with halted := true, finalRenderDone := true, renders := [Framebuffer.clear] } := by rfl
theorem test_halted_stops : step { State.reset with halted := true, finalRenderDone := true } =
    .fault .runHalted := by rfl
/-- 60_exceptions.md R221: at the nominal periods (2 ms and 1000/60 ms) an elapsed 2 ms gives one Tick. -/
theorem test_iteration_tick : choose Config.standard ⟨⟨0, 0, 0⟩, [.iteration .start 6], none⟩ =
    (.tick, ⟨⟨0, 0, 0⟩, [.iteration .cpuLoop 6], none⟩) := by decide
/-- 60_exceptions.md R221: after the CPU loop the timer loop takes the same delta. -/
theorem test_iteration_timer : choose Config.standard ⟨⟨2, 0, 0⟩, [.iteration .cpuLoop 50], none⟩ =
    (.timerDecay, ⟨⟨2, 0, 0⟩, [.iteration .timerLoop 50], none⟩) := by decide

/-! ## Construction -/

/-- 70_reset_and_hazards.md R240: the reset state is what construction makes of the defaults and an empty image. -/
theorem test_construct_reset :
    (match State.construct Config.standard ⟨Config.defaultFont.toArray, rfl⟩ ⟨[], 0, 0⟩ [] with
      | .next t => decide (t = State.reset)
      | _ => false) = true := by decide
/-- W9: the image of a call. -/
theorem test_construct_image :
    (match State.construct Config.standard ⟨Config.defaultFont.toArray, rfl⟩ ⟨[], 0, 0⟩ [0x23#8, 0x00#8] with
      | .next t => decide (t.mem = [(0x200, 0x23#8)])
      | _ => false) = true := by decide

/-! ## Witnesses: a concrete state and operands that meet every hypothesis of each statement, at the edges of its clauses

The outcomes beside them are worked out by hand from the rules. -/

open Sys2Proof.Claims

/-- The configuration with FONT_PROTECT and a stack of two entries. -/
def guarded : Config := { Config.standard with fontProtect := true, stackCap := some 2 }

theorem witness_DecodeOfEncodeIsInstruction : (Instr.opDXYN 15 15 15).wf = true ∧ (Instr.op1NNN 0xFFF#12).wf = true := by
  decide
theorem witness_EncodeOfDecodeIsWord : decode 0xDFFF#16 = .ok (.opDXYN 15 15 15) := by decide
theorem witness_WordDecodesThroughItsOneRow :
    Instr.op00EE.row ∈ opcodeTable ∧ Instr.op00EE.row.selects 0x00EE#16 = true ∧ decode 0x00EE#16 = .ok .op00EE := by
  decide
/-- An illegal word of each of R85's groups, and one at the last address a fetch can start from. -/
theorem witness_IllegalWordRaisesUnimplemented :
    (IllegalWord 0x0000#16 ∧ IllegalWord 0x5AB1#16 ∧ IllegalWord 0x8AB8#16 ∧ IllegalWord 0xE19E#16 ∧ IllegalWord 0xF10A#16) ∧
    ({ State.reset with pc := 0xFFE#16 } : State).Running ∧
    ({ State.reset with pc := 0xFFE#16 } : State).nextAction = .tick ∧
    fetch { State.reset with pc := 0xFFE#16 } = some 0x0000#16 := by
  refine ⟨⟨?_, ?_, ?_, ?_, ?_⟩, by decide, by decide, by decide⟩ <;> simp only [IllegalWord] <;> decide
theorem witness_StepRunsDecodedInstruction :
    let s : State := { State.reset with pc := 0xFFE#16, mem := [(0xFFE, 0x6F#8), (0xFFF, 0x11#8)] }
    s.Running ∧ s.nextAction = .tick ∧ s.sched.agenda = [] ∧ s.sched.stopAfter = none ∧ s.pc.toNat + 1 ≤ 0xFFF ∧
      decode (s.mem.get s.pc.toNat ++ s.mem.get (s.pc.toNat + 1)) = .ok (.op6XNN 15 0x11#8) := by decide
theorem witness_FetchPastMemoryFaults :
    let s : State := { State.reset with pc := 0xFFF#16 }
    s.Running ∧ s.nextAction = .tick ∧ 0xFFF < s.pc.toNat + 1 := by decide
theorem witness_WordReadJoinsTwoBytes :
    memRead [(0xFFE, 0x12#8)] 0xFFE 2 = some [0x12#8, 0#8] ∧ memRead16 [(0xFFE, 0x12#8)] 0xFFE = some 0x1200#16 ∧
    memRead [] 0xFFF 2 = none := by decide
theorem witness_MemoryReadChecksWholeRange :
    memRead [] 0 0 = none ∧ memRead [] 1 0 = some [] ∧ memRead [] 0xFFF 1 = some [0#8] ∧ memRead [] 0xFFF 2 = none ∧
    memRead [] 0x1000 0 = none := by decide
/-- 6FFF and 7FFF: register 15 at the edge of its range, the largest immediate. -/
theorem witness_ImmediateLoadAndAdd :
    15 < 16 ∧ regsAfter State.reset 0x6FFF [15] = some [0xFF#8] ∧
    regsAfter (withRegs [(15, 2#8)]) 0x7FFF [15] = some [1#8] := by decide
theorem witness_MoveAndLogicWriteOnlyDestination :
    15 < 16 ∧ ([0x8FE0, 0x8FE1, 0x8FE2, 0x8FE3].map fun w =>
      regsAfter (withRegs [(15, 0xC#8), (14, 0xA#8)]) w [15, 14]) =
      [some [0xA#8, 0xA#8], some [0xE#8, 0xA#8], some [8#8, 0xA#8], some [6#8, 0xA#8]] := by decide
/-- The four cases of VF as an operand, in the statement's order. -/
theorem witness_AddWritesCarryThenSum :
    14 < 16 ∧ 15 < 16 ∧ ([0x8ED4, 0x8EF4, 0x8FE4, 0x8FF4].map fun w =>
      regsAfter (withRegs [(13, 1#8), (14, 0xFF#8), (15, 0x80#8)]) w [14, 15]) =
      [some [0#8, 1#8], some [0#8, 1#8], some [0xFF#8, 0#8], some [0xFF#8, 2#8]] := by decide
theorem witness_SubtractWritesNoBorrowThenDifference :
    14 < 16 ∧ 15 < 16 ∧ ([0x8ED5, 0x8EF5, 0x8FE5, 0x8FF5, 0x8ED7, 0x8EF7, 0x8FE7, 0x8FF7].map fun w =>
      regsAfter (withRegs [(13, 4#8), (14, 3#8), (15, 3#8)]) w [14, 15]) =
      [some [0xFF#8, 0#8], some [2#8, 1#8], some [3#8, 0xFE#8], some [3#8, 0#8],
        some [1#8, 1#8], some [0xFE#8, 1#8], some [3#8, 2#8], some [3#8, 0#8]] := by decide
/-- Both settings of the quirk, with and without VF as the destination. -/
theorem witness_ShiftWritesBitThenShifted :
    14 < 16 ∧ 15 < 16 ∧ ([Config.standard, flippedQuirks].map fun c => [0x8ED6, 0x8FD6, 0x8EDE, 0x8FDE].map fun w =>
      regsAfter { withRegs [(13, 0x81#8), (14, 0x40#8), (15, 1#8)] with config := c } w [14, 15]) =
      [[some [0x20#8, 0#8], some [0x40#8, 0#8], some [0x80#8, 0#8], some [0x40#8, 0#8]],
        [some [0x40#8, 1#8], some [0x40#8, 0#8], some [2#8, 1#8], some [0x40#8, 2#8]]] := by decide
theorem witness_RandomDrawsOneByteAndMasks :
    15 < 16 ∧ ({ State.reset with rng := ⟨[0xA7#8], 0, 0⟩ } : State).rng.injected = 0xA7#8 :: [] ∧
    State.reset.rng.injected = [] := by decide
/-- A self-jump, another jump, and the self-jump with HALT_ON_SELF_JUMP off. -/
theorem witness_JumpSetsPcAndHaltsOnItself :
    [(State.reset, 0x1200), (State.reset, 0x1FFF),
      ({ State.reset with config := { Config.standard with haltOnSelfJump := false } }, 0x1200)].map
      (fun a => (after a.1 a.2).map fun t => (t.pc, t.halted)) =
      [some (0x200#16, true), some (0xFFF#16, false), some (0x200#16, false)] := by decide
/-- One free entry, and none. -/
theorem witness_CallPushesReturnAddress :
    (∀ cap, ({ State.reset with config := guarded, stack := [0x202#16] } : State).config.stackCap = some cap → 1 < cap) ∧
    (∃ cap, ({ State.reset with config := guarded, stack := [0x202#16, 0x204#16] } : State).config.stackCap = some cap ∧
      cap ≤ 2) := by
  exact ⟨fun cap h => by cases h; decide, 2, rfl, by decide⟩
theorem witness_ReturnPopsIntoPc :
    ({ State.reset with stack := [0x1000#16, 0x202#16] } : State).stack = 0x1000#16 :: [0x202#16] ∧
    State.reset.stack = [] := by decide
theorem witness_ReturnUndoesCall :
    let s : State := { State.reset with config := guarded, stack := [0x202#16] }
    (∀ cap, s.config.stackCap = some cap → s.stack.length < cap) ∧
    ∃ t u : State, exec (.op2NNN 0xABC#12) s = .next t ∧ u.stack = t.stack := by
  exact ⟨fun cap h => by cases h; decide, _, _, rfl, rfl⟩
/-- Each skip taken and not taken, at the last register. -/
theorem witness_SkipsAddTwoWhenTrue :
    15 < 16 ∧ ([0x3F07, 0x3F08, 0x4F07, 0x4F08, 0x5FF0, 0x5FE0, 0x9FF0, 0x9FE0].map fun w =>
      (after (withRegs [(15, 7#8)]) w).map (·.pc)) =
      [some 0x204#16, some 0x202#16, some 0x202#16, some 0x204#16, some 0x204#16, some 0x202#16, some 0x202#16,
        some 0x204#16] := by decide
/-- The sum at 0xFFF and at 0x1000, the quirk off, and `X = F`. -/
theorem witness_AddIndexWrapsAndFlags :
    15 < 16 ∧
    ([(0xFFE#16, 0xF11E, Config.standard), (0xFFF#16, 0xF11E, Config.standard), (0xFFF#16, 0xF11E, flippedQuirks),
      (0xFFF#16, 0xFF1E, Config.standard)].map fun a =>
      idxAfter { withRegs [(1, 1#8), (15, 9#8)] with idx := a.1, config := a.2.2 } a.2.1 [15]) =
      [some (0xFFF#16, [0#8]), some (0#16, [1#8]), some (0#16, [9#8]), some (0#16, [1#8])] := by decide
/-- The last digit with a glyph and the first above it. -/
theorem witness_GlyphAddressSetsIndex :
    15 < 16 ∧ ((withRegs [(15, 0xF#8)]).getV 15).toNat ≤ 0xF ∧ 0xF < ((withRegs [(15, 0x10#8)]).getV 15).toNat := by decide
/-- The last range that fits, the first that does not, and both edges of the protected font. -/
theorem witness_DecimalDigitsAreStored :
    15 < 16 ∧ State.reset.mem.wf = true ∧
    ([0xFFD#16, 0xFFE#16, 0x04D#16, 0x04E#16, 0x09F#16, 0x0A0#16].map fun a =>
      (after { withRegs [(15, 255#8)] with idx := a, config := guarded } 0xFF33).map fun t =>
        (t.fault.isSome, t.mem.range a.toNat 3)) =
      [some (false, [2#8, 5#8, 5#8]), some (true, [0#8, 0#8, 0#8]), some (false, [2#8, 5#8, 5#8]),
        some (true, [0#8, 0#8, 0xF0#8]), some (true, [0x80#8, 0#8, 0#8]), some (false, [2#8, 5#8, 5#8])] := by decide
theorem witness_RegisterDumpStoresBlock :
    15 < 16 ∧ State.reset.mem.wf = true ∧
    ([(0xFF0#16, Config.standard), (0xFF1#16, Config.standard), (0xFF0#16, flippedQuirks), (0x040#16, guarded),
      (0x041#16, guarded), (0x0A0#16, guarded)].map fun a =>
      (after { withRegs [(15, 7#8)] with idx := a.1, config := a.2 } 0xFF55).map fun t =>
        (t.fault.isSome, t.mem.get (a.1.toNat + 15), t.idx)) =
      [some (false, 7#8, 0xFF0#16), some (true, 0#8, 0xFF1#16), some (false, 7#8, 0#16), some (false, 7#8, 0x040#16),
        some (true, 0xF0#8, 0x041#16), some (false, 7#8, 0x0A0#16)] := by decide
theorem witness_RegisterLoadReadsBlock :
    15 < 16 ∧
    ([(0xFF0#16, Config.standard), (0xFF1#16, Config.standard), (0xFF0#16, flippedQuirks)].map fun a =>
      (after { State.reset with idx := a.1, config := a.2, mem := [(0xFFF, 7#8)] } 0xFF65).map fun t =>
        (t.fault.isSome, t.getV 15, t.idx)) =
      [some (false, 7#8, 0xFF0#16), some (true, 0#8, 0xFF1#16), some (false, 7#8, 0#16)] := by decide
theorem witness_DumpThenLoadRestoresRegisters :
    let s : State := { withRegs [(15, 7#8)] with idx := 0xFF0#16 }
    15 < 16 ∧ s.mem.wf = true ∧ s.idx.toNat + 15 ≤ 0xFFF ∧ s.config.fontProtect = false ∧
      ∃ t u : State, exec (.opFX55 15) s = .next t ∧ u.mem = t.mem ∧ u.idx = s.idx := by
  exact ⟨by decide, rfl, by decide, rfl, _, _, rfl, rfl, rfl⟩
/-- The word after one step on a word, fetched at an address: the last word of memory, and words half in the stored range,
with FONT_PROTECT on. -/
theorem witness_StoredWordIsFetched :
    15 < 16 ∧ State.reset.mem.wf = true ∧ 0xFFE + 1 ≤ 0xFFF ∧
    ([(0xFFD#16, 0xFF33, 0xFFE), (0xFFD#16, 0xFF33, 0xFFC), (0x0A0#16, 0xFF33, 0x09F), (0xFF0#16, 0xFF55, 0xFFE),
      (0xFF0#16, 0xFF55, 0xFEF), (0x040#16, 0xFF55, 0x04F)].map fun a =>
      (after { withRegs [(0, 0x12#8), (14, 0x34#8), (15, 213#8)] with idx := a.1, config := guarded } a.2.1).map fun t =>
        fetch { t with pc := BitVec.ofNat 16 a.2.2 }) =
      [some (some 0x0103#16), some (some 0x0002#16), some (some 0x8002#16), some (some 0x34D5#16),
        some (some 0x0012#16), some (some 0xD5F0#16)] := by decide
theorem witness_ReadTimerLoadsRegister :
    15 < 16 ∧ regsAfter { State.reset with dt := 0xFF#8 } 0xFF07 [15, 0] = some [0xFF#8, 0#8] := by decide
theorem witness_SetTimerChangesOnlyTimer :
    15 < 16 ∧ (after (withRegs [(15, 0xFF#8)]) 0xFF15).map (·.dt) = some 0xFF#8 := by decide
/-- Fewer and more decays than the timer holds. -/
theorem witness_TimerReadsAfterDecays :
    15 < 16 ∧ ([1, 3].map fun k => regsAfter (decays k { State.reset with dt := 2#8 }) 0xFF07 [15]) =
      [some [1#8], some [0#8]] := by decide
theorem witness_SpriteBitsToggleTheirPixels :
    63 < 64 ∧ 31 < 32 ∧ spriteBit 0x7F#8 0x3F#8 1 (fun _ => 0x80#8) 63 31 = true := by decide
/-- A sprite at the last column and row, an empty range at 0, a range to 0xFFF, and one past it. -/
theorem witness_DrawTogglesFromMemoryAndFlags :
    15 < 16 ∧
    ([(0xFFF#16, 0xDFF1), (0xFF2#16, 0xDFFF), (0#16, 0xDFF0), (1#16, 0xDFF0), (0xFFF#16, 0xDFF0),
      (0x1000#16, 0xDFF0)].map fun a =>
      (after { withRegs [(15, 0x3F#8)] with idx := a.1, mem := [(0xFFF, 0x80#8)] } a.2).map fun t =>
        (t.fault.isSome, t.fb.pixel 63 31, t.getV 15)) =
      [some (false, true, 0#8), some (true, false, 0x3F#8), some (true, false, 0x3F#8), some (false, false, 0#8),
        some (false, false, 0#8), some (true, false, 0x3F#8)] := by decide
/-- Coordinates that are not VF: the draw keeps them. -/
theorem witness_DrawTwiceRestoresGrid :
    let s : State := { withRegs [(14, 0x3F#8)] with idx := 0xFFF#16, mem := [(0xFFF, 0x80#8)] }
    14 < 16 ∧ 1 < 16 ∧ inBounds s.idx.toNat 1 = true ∧
      ∃ t, exec (.opDXYN 14 14 1) s = .next t ∧ t.getV 14 = s.getV 14 := by
  exact ⟨by decide, by decide, by decide, _, rfl, by decide⟩
/-- Every kind an instruction can raise. -/
theorem witness_InstructionRaisesOnlyItsFaults :
    (decode 0x00EE#16 = .ok .op00EE ∧ decode 0x2200#16 = .ok (.op2NNN 0x200#12) ∧ decode 0xFF65#16 = .ok (.opFX65 15)) ∧
    State.reset.fault = none ∧
    ([0x00EE, 0x2200, 0xFF65].map fun w =>
      (faultAfter { State.reset with config := guarded, idx := 0xFF1#16, stack := [] } w).map fun r => r.1.map (·.kind)) =
      [some (some .stackUnderflow), some none, some (some .outOfBounds)] ∧
    ((faultAfter { State.reset with config := guarded, stack := [0#16, 0#16] } 0x2200).map fun r => r.1.map (·.kind)) =
      some (some .stackOverflow) := by decide
/-- The second register of a pair out of range; for the second part, a decoded instruction that raises a fault. -/
theorem witness_RegisterIndexIsGuarded :
    (∃ r ∈ regsUsed Config.standard (.op8XY0 15 16), 16 ≤ r) ∧
    decode 0x00EE#16 = .ok .op00EE ∧ State.reset.fault = none ∧
    ∃ t r, exec .op00EE State.reset = .next t ∧ t.fault = some r := by
  exact ⟨⟨16, by decide, by decide⟩, by decide, rfl, _, _, rfl, rfl⟩
/-- A fetch fault and a fault of an instruction. -/
theorem witness_FaultsArePrecise :
    (State.reset.Running ∧ ∃ t r, step State.reset = .next t ∧ t.fault = some r) ∧
    (({ State.reset with pc := 0xFFF#16 } : State).Running ∧
      ∃ t r, step { State.reset with pc := 0xFFF#16 } = .next t ∧ t.fault = some r) := by
  exact ⟨⟨⟨rfl, rfl, rfl⟩, _, _, rfl, rfl⟩, ⟨rfl, rfl, rfl⟩, _, _, rfl, rfl⟩
theorem witness_EndedRunTakesNoStep :
    (∃ r, ({ State.reset with fault := some ⟨.stackUnderflow, 0x200#16, some 0x00EE#16, none⟩ } : State).fault = some r) ∧
    (({ State.reset with stopped := true } : State).fault = none ∧
      ({ State.reset with stopped := true } : State).stopped = true) ∧
    (({ State.reset with halted := true } : State).fault = none ∧
      ({ State.reset with halted := true } : State).stopped = false ∧
      ({ State.reset with halted := true } : State).halted = true ∧
      ({ State.reset with halted := true } : State).finalRenderDone = false) := by
  exact ⟨⟨_, rfl⟩, ⟨rfl, rfl⟩, rfl, rfl, rfl, rfl⟩
theorem witness_RunningBlockAlwaysSteps : State.reset.Running := by decide
theorem witness_ConfigurationIsConstant :
    ∃ t, step { State.reset with config := flippedQuirks } = .next t := ⟨_, rfl⟩
/-- A self-jump at the pc halts; a halted state steps once more. -/
theorem witness_OnlySelfJumpHalts :
    (after State.reset 0x1200).map (·.halted) = some true ∧ (State.reset.withFetchWord 16 0x1200).Running ∧
    ∃ t, step { State.reset with halted := true } = .next t := by
  exact ⟨by decide, by decide, _, rfl⟩
theorem witness_OnlyNamedWritersChangeState :
    ∃ t, exec (.opFX33 15) { withRegs [(15, 9#8)] with idx := 0xFFD#16 } = .next t ∧ t.mem ≠ State.reset.mem := by
  exact ⟨_, rfl, by decide⟩
/-- VF as a flag, as the quirk's flag, and as a plain destination. -/
theorem witness_OnlyFlagWritersChangeVF :
    (∃ t, exec (.op8XY5 0 0) State.reset = .next t ∧ t.getV 15 ≠ State.reset.getV 15) ∧
    (∃ t, exec (.opFX1E 1) { withRegs [(1, 1#8)] with idx := 0xFFF#16 } = .next t ∧ t.getV 15 ≠ State.reset.getV 15) ∧
    (∃ t, exec (.op6XNN 15 1#8) State.reset = .next t ∧ t.getV 15 ≠ State.reset.getV 15) := by
  exact ⟨⟨_, rfl, by decide⟩, ⟨_, rfl, by decide⟩, _, rfl, by decide⟩
theorem witness_RenderRequestsOnlyWhereNamed :
    ([0x00E0, 0xD010, 0x6000].map fun w => (after { State.reset with idx := 1#16 } w).map (·.renders.length)) =
      [some 1, some 1, some 0] := by decide
/-- FONT_PROTECT on, both edges of the region. -/
theorem witness_ProtectedFontNeverChanges :
    (∃ t, step ({ State.reset with config := guarded, idx := 0x04D#16 }.withFetchWord 16 0xF033) = .next t) ∧
    ({ State.reset with config := guarded, idx := 0x04D#16 }.withFetchWord 16 0xF033).config.fontProtect = true ∧
    0x050 ≤ 0x050 ∧ 0x09F ≤ 0x09F := by
  exact ⟨⟨_, rfl⟩, by decide⟩
/-- A Refresh, a TimerDecay, the Tick that halts; nothing may follow it. -/
theorem witness_EveryFiniteScheduleRuns :
    ∃ t, PerformedInOrder [.refresh, .timerDecay, .tick] { State.reset with mem := [(0x200, 0x12#8)], dt := 3#8 } t :=
  ⟨_, ⟨rfl, rfl, rfl⟩, _, rfl, ⟨rfl, rfl, rfl⟩, _, rfl, ⟨rfl, rfl, rfl⟩, _, rfl, rfl⟩
theorem witness_SchedulerIsInvisibleToSteps :
    ∃ t, perform .tick { State.reset with mem := [(0x200, 0x12#8)] } = .next t := ⟨_, rfl⟩
/-- The nominal periods; 7 ms elapsed after 1.67 ms, 10 ms and 16.33 ms left over. -/
theorem witness_ReferenceIterationCatchesUp :
    (0 < Config.standard.periodCpu ∧ 0 < Config.standard.periodTimer ∧ 0 < Config.standard.periodRefresh) ∧
    (choices Config.standard 6 ⟨⟨5, 30, 49⟩, [.iteration .start 21], none⟩).1 =
      [.tick, .tick, .tick, .tick, .timerDecay, .refresh] := by decide
/-- The last register, in a state where it is not zero. -/
theorem witness_RegistersAreZeroAtReset :
    15 < 16 ∧ (withRegs [(15, 9#8)]).fault = none ∧ (withRegs [(15, 9#8)]).getV 15 = 9#8 := by decide
/-- A stop before the first tick of an iteration, before its second, between its loops, and after it. -/
theorem witness_StopLandsBeforeAnyStep :
    ([0, 1, 4, 6].map fun k =>
      (choices Config.standard (k + 1) ⟨⟨5, 30, 49⟩, [.iteration .start 21], some k⟩).1) =
      [[.stop], [.tick, .stop], [.tick, .tick, .tick, .tick, .stop],
        [.tick, .tick, .tick, .tick, .timerDecay, .refresh, .stop]] := by decide
theorem witness_ResetStateIsAsListed :
    79 < 80 ∧ State.reset.mem.get (0x050 + 79) = 0x80#8 ∧ State.reset.mem.get 0x04F = 0#8 ∧
    State.reset.mem.get 0x0A0 = 0#8 := by decide
/-- The longest image that fits and the shortest that does not. -/
theorem witness_ConstructionLoadsFontAndImage :
    (List.replicate 3584 0#8).length ≤ 3584 ∧ 3584 < (List.replicate 3585 0#8).length := by
  rw [List.length_replicate, List.length_replicate]
  decide
/-- A state inside a subroutine, with the pc at the top of memory. -/
def inSubroutine : State := { State.reset with pc := 0xFFE#16, stack := [0x1000#16], config := guarded, dt := 9#8 }
theorem witness_StepKeepsInvariant : Inv inSubroutine ∧ ∃ t, step inSubroutine = .next t := by
  constructor
  · constructor
    · rfl
    · decide
    · intro a h
      obtain rfl := List.mem_singleton.1 h
      decide
    · intro cap h
      cases h
      decide
    · intro _
      decide
    · exact ⟨fun h => ⟨rfl, rfl⟩, fun _ => rfl⟩
    · intro h
      cases h
  · exact ⟨_, rfl⟩

/-! A weakly fair infinite run that never changes the delay timer in a Tick: 1200 at 0x200 spins with HALT_ON_SELF_JUMP off,
and Tick, TimerDecay and Refresh take turns. -/

/-- The spinning program with `n` render requests emitted and the delay timer at `b`. -/
def spinning (n : Nat) (b : Byte) : State :=
  { State.reset with
    mem := [(0x200, 0x12#8)]
    dt := b
    config := { Config.standard with haltOnSelfJump := false }
    renders := List.replicate n Framebuffer.clear }

/-- Tick, TimerDecay, Refresh, and so on. -/
def turnOf (n : Nat) : Action := if n % 3 = 0 then .tick else if n % 3 = 1 then .timerDecay else .refresh

theorem spinning_tick (n : Nat) (b : Byte) : perform .tick (spinning n b) = .next (spinning n b) := by
  have hf : fetch (spinning n b) = some 0x1200#16 :=
    (rfl : _ = memRead16 [(0x200, 0x12#8)] 0x200).trans (by decide)
  have hd : decode 0x1200#16 = .ok (.op1NNN 0x200#12) := by decide
  rw [perform, tick_of_fetch hf, runWord_of_decode _ hd]
  rfl
theorem spinning_decay (n : Nat) (b : Byte) :
    perform .timerDecay (spinning n b) = .next (spinning n (if 0 < b.toNat then b - 1#8 else b)) := by
  by_cases h : 0 < b.toNat <;> simp [perform, State.timerDecay, spinning, h, State.setDt]
theorem spinning_refresh (n : Nat) (b : Byte) : perform .refresh (spinning n b) = .next (spinning (n + 1) b) := by rfl
theorem turnOf_fair : WeaklyFair turnOf := by
  intro n
  refine ⟨⟨3 * n, by omega, ?_⟩, ⟨3 * n + 1, by omega, ?_⟩, ⟨3 * n + 2, by omega, ?_⟩⟩
  · rw [turnOf, if_pos (by omega)]
  · rw [turnOf, if_neg (by omega), if_pos (by omega)]
  · rw [turnOf, if_neg (by omega), if_neg (by omega)]
theorem witness_FairRunExpiresTimer :
    ∃ states : Nat → State, InfiniteRun turnOf states ∧ WeaklyFair turnOf ∧
      ∀ n, turnOf n = .tick → (states (n + 1)).dt = (states n).dt := by
  refine ⟨fun n => spinning (n / 3) (BitVec.ofNat 8 (2 - (n + 1) / 3)), fun n => ⟨⟨rfl, rfl, rfl⟩, ?_⟩, turnOf_fair, ?_⟩
  · have h : n % 3 = 0 ∨ n % 3 = 1 ∨ n % 3 = 2 := by omega
    obtain h | h | h := h
    · rw [turnOf, if_pos h, spinning_tick]
      show _ = Host.Outcome.next (spinning ((n + 1) / 3) (BitVec.ofNat 8 (2 - (n + 1 + 1) / 3)))
      rw [show (n + 1) / 3 = n / 3 by omega, show (n + 1 + 1) / 3 = n / 3 by omega]
    · rw [turnOf, if_neg (by omega), if_pos h, spinning_decay]
      show _ = Host.Outcome.next (spinning ((n + 1) / 3) (BitVec.ofNat 8 (2 - (n + 1 + 1) / 3)))
      rw [show (n + 1) / 3 = n / 3 by omega, show (n + 1 + 1) / 3 = n / 3 + 1 by omega]
      generalize n / 3 = k
      obtain rfl | rfl | hk : k = 0 ∨ k = 1 ∨ 2 ≤ k := by omega
      · rfl
      · rfl
      · rw [show 2 - k = 0 by omega, show 2 - (k + 1) = 0 by omega]
        rfl
    · rw [turnOf, if_neg (by omega), if_neg (by omega), spinning_refresh]
      show _ = Host.Outcome.next (spinning ((n + 1) / 3) (BitVec.ofNat 8 (2 - (n + 1 + 1) / 3)))
      rw [show (n + 1) / 3 = n / 3 + 1 by omega, show (n + 1 + 1) / 3 = n / 3 + 1 by omega]
  · intro n h
    have h3 : n % 3 = 0 := by
      by_contra hn
      rw [turnOf, if_neg hn] at h
      split at h <;> cases h
    show BitVec.ofNat 8 (2 - (n + 1 + 1) / 3) = BitVec.ofNat 8 (2 - (n + 1) / 3)
    rw [show (n + 1) / 3 = n / 3 by omega, show (n + 1 + 1) / 3 = n / 3 by omega]

end Sys2Proof.Tests
end

section
/-! Proofs about the general registers (10_state.md R20 to R23): their value at reset, and reading one by a move. -/

namespace Sys2Proof.Machine

/-- Every register index reads 0 in the reset state (10_state.md R23); an index above 15 by `State.getV`'s default. -/
@[simp] theorem State.getV_reset (r : Nat) : State.reset.getV r = 0#8 := by
  by_cases h : r < 16 <;> simp [State.getV, State.reset, h]

/-- 8XY0 on registers 0..15 is one register write (42_alu.md R143). -/
theorem exec_op8XY0 (s : State) {x y : Nat} (hx : x < 16) (hy : y < 16) :
    exec (.op8XY0 x y) s = .next (s.setV x (s.getV y)) :=
  guardRegs_two (.op8XY0 x y) s _ hx hy

end Sys2Proof.Machine

namespace Sys2Proof.Proofs

open Sys2Proof.Machine

/-- Settles O55: the reset registers are a vector of zeroes, and a move from a register is one register write, which
touches neither the value read nor the fault. -/
theorem registersAreZeroAtReset : Obligations.RegistersAreZeroAtReset := by
  intro r hr
  refine ⟨State.getV_reset r, fun s x hs hx => ⟨s.setV x (s.getV r), exec_op8XY0 s hx hr, ?_, ?_⟩⟩
  · exact State.getV_setV_same s x (s.getV r) hx
  · rw [State.setV_fault, hs]

end Sys2Proof.Proofs
end

section
/-! Proofs about reading memory (20_memory.md R51, R60): when a read succeeds, what it delivers, and the joined word. -/

namespace Sys2Proof.Machine

/-- Joining bytes as numbers: the first byte weighs 256. -/
@[simp] theorem toNat_joinBytes (hi lo : Byte) : (joinBytes hi lo).toNat = 256 * hi.toNat + lo.toNat := by
  rw [joinBytes, BitVec.toNat_append, ← Nat.shiftLeft_add_eq_or_of_lt lo.isLt, Nat.shiftLeft_eq, Nat.mul_comm]

/-- `MemRead` delivers exactly the range it was asked for, and only inside memory. -/
theorem memRead_eq_some_iff {m : Memory} {a n : Nat} {bs : List Byte} :
    memRead m a n = some bs ↔ inBounds a n = true ∧ m.range a n = bs := by
  simp [memRead]

/-- `MemRead` fails exactly outside memory. -/
theorem memRead_eq_none_iff {m : Memory} {a n : Nat} : memRead m a n = none ↔ inBounds a n = false := by
  simp [memRead]

/-- `MemRead16` inside memory joins the two bytes, the one at the lower address high. -/
theorem memRead16_ok {a : Nat} (m : Memory) (h : inBounds a 2 = true) :
    memRead16 m a = some (joinBytes (m.get a) (m.get (a + 1))) :=
  if_pos h

/-- `MemRead16` fails outside memory. -/
theorem memRead16_bad {a : Nat} (m : Memory) (h : inBounds a 2 = false) : memRead16 m a = none := by
  simp [memRead16, h]

/-- The two-byte range is the byte at `a` and the byte after it. -/
theorem Memory.range_two (m : Memory) (a : Nat) : m.range a 2 = [m.get a, m.get (a + 1)] := rfl

end Sys2Proof.Machine

namespace Sys2Proof.Proofs

open Sys2Proof.Machine

/-- Settles O8: `MemRead(a, 2)` and `MemRead16(a)` share the bounds test, and a successful one reads the two-byte range at
`a`, whose bytes the other joins. -/
theorem wordReadJoinsTwoBytes : Obligations.WordReadJoinsTwoBytes := by
  intro m a
  refine ⟨fun hi lo h => ?joined, fun h => ?fails, fun bs h => ?two⟩
  case joined =>
    obtain ⟨hin, hbytes⟩ := memRead_eq_some_iff.mp h
    rw [Memory.range_two] at hbytes
    obtain ⟨rfl, rfl⟩ : m.get a = hi ∧ m.get (a + 1) = lo := by simpa using hbytes
    exact ⟨_, memRead16_ok m hin, toNat_joinBytes _ _⟩
  case fails => exact memRead16_bad m (memRead_eq_none_iff.mp h)
  case two =>
    obtain ⟨-, rfl⟩ := memRead_eq_some_iff.mp h
    exact Memory.length_range m a 2

end Sys2Proof.Proofs
end

section
/-! Proofs about the compositor (40_display.md R100, R101): the pixels after one bit, one row and all rows of a sprite. -/

namespace Sys2Proof.Machine

open Sys2Proof.Claims

/-- The bit that lands on the pixel `(p, q)` from a sprite whose top left corner is at `(x0, y0)`, with no wrapping. -/
def bodyBit (x0 y0 : Nat) (rows : List Byte) (p q : Nat) : Bool :=
  decide (x0 ≤ p) && decide (p < x0 + 8) && decide (y0 ≤ q) && decide (q < y0 + rows.length) &&
    (rows.getD (q - y0) 0#8).getLsbD (7 - (p - x0))

/-- The statement's sprite bit is the body's, laid from the wrapped start. -/
theorem spriteBit_eq_bodyBit (x y : Byte) (rows : List Byte) (p q : Nat) :
    spriteBit x y rows.length (fun k => rows.getD k 0#8) p q = bodyBit (x.toNat % 64) (y.toNat % 32) rows p q :=
  rfl

/-- A sprite without rows sets no bit. -/
@[simp] theorem bodyBit_nil (x0 y0 p q : Nat) : bodyBit x0 y0 [] p q = false := by
  simp +contextual [bodyBit]

/-- One row: only pixels of its screen row and its eight columns. -/
theorem bodyBit_singleton (row : Byte) (x0 y0 p q : Nat) :
    bodyBit x0 y0 [row] p q =
      (decide (y0 = q ∧ x0 ≤ p ∧ p < x0 + 8) && row.getLsbD (7 - (p - x0))) := by
  by_cases hq : y0 = q
  · subst hq
    simp [bodyBit]
  · have hout : y0 ≤ q → ¬q ≤ y0 := by omega
    simp +contextual [bodyBit, hq, hout]

/-- The rows of a sprite land on different screen rows, so their bits combine by exclusive-or. -/
theorem bodyBit_cons (row : Byte) (rows : List Byte) (x0 y0 p q : Nat) :
    bodyBit x0 y0 (row :: rows) p q = (bodyBit x0 y0 [row] p q ^^ bodyBit x0 (y0 + 1) rows p q) := by
  obtain habove | rfl | hbelow := Nat.lt_trichotomy q y0
  · simp [bodyBit, Nat.not_le.2 habove, Nat.not_le.2 (Nat.lt_succ_of_lt habove)]
  · simp [bodyBit]
  · obtain ⟨k, rfl⟩ := Nat.exists_eq_add_of_lt hbelow
    have hrest : y0 + k + 1 - (y0 + 1) = k := by omega
    have hwhole : y0 + k + 1 - y0 = k + 1 := by omega
    have hin : y0 + k + 1 < y0 + (rows.length + 1) ↔ k < rows.length := by omega
    have hin' : y0 + k + 1 < y0 + 1 + rows.length ↔ k < rows.length := by omega
    have hout : ¬y0 + k + 1 < y0 + 1 := by omega
    have hle : y0 ≤ y0 + k + 1 := by omega
    simp [bodyBit, hrest, hwhole, hin, hin', hout, hle]

/-- One bit of a row: a set bit inverts the pixel at its column offset, a clear one nothing (40_display.md R101). -/
theorem Canvas.pixel_bit (c : Canvas) (row : Byte) (x0 py b p q : Nat) (hp : p < 64) (hq : q < 32) :
    (c.bit row x0 py b).fb.pixel p q =
      (c.fb.pixel p q ^^ (decide (x0 + b = p ∧ py = q) && row.getLsbD (7 - b))) := by
  unfold Canvas.bit
  split
  next hset =>
    rw [Canvas.pixel_hit c (x0 + b) py p q hp hq]
    by_cases h : x0 + b = p ∧ py = q <;> simp [h, hset]
  next hclear => simp [hclear]

/-- Bits at different column offsets land on different pixels, so drawing them inverts a pixel at most once. -/
theorem Canvas.pixel_foldl_bit (row : Byte) (x0 py p q : Nat) (hp : p < 64) (hq : q < 32) (bs : List Nat)
    (hbs : bs.Nodup) (c : Canvas) :
    (bs.foldl (fun c b => c.bit row x0 py b) c).fb.pixel p q =
      (c.fb.pixel p q ^^ (decide (py = q ∧ x0 ≤ p ∧ p - x0 ∈ bs) && row.getLsbD (7 - (p - x0)))) := by
  induction bs generalizing c with
  | nil => simp
  | cons b bs ih =>
    obtain ⟨hnot, hrest⟩ := List.nodup_cons.1 hbs
    rw [List.foldl_cons, ih hrest, Canvas.pixel_bit c row x0 py b p q hp hq]
    by_cases hb : x0 + b = p
    · subst hb
      simp [hnot]
    · have hne : x0 ≤ p → p - x0 ≠ b := by omega
      by_cases hx : x0 ≤ p <;> simp [hb, hx, hne]

/-- A row draws its eight column offsets from left to right. -/
theorem Canvas.row_eq_foldl_range (c : Canvas) (row : Byte) (x0 py : Nat) :
    c.row row x0 py = (List.range 8).foldl (fun c b => c.bit row x0 py b) c :=
  rfl

/-- One row of a sprite inverts the pixels under its set bits. -/
theorem Canvas.pixel_row (c : Canvas) (row : Byte) (x0 py p q : Nat) (hp : p < 64) (hq : q < 32) :
    (c.row row x0 py).fb.pixel p q = (c.fb.pixel p q ^^ bodyBit x0 py [row] p q) := by
  have hcolumns : x0 ≤ p ∧ p - x0 ∈ List.range 8 ↔ x0 ≤ p ∧ p < x0 + 8 := by
    rw [List.mem_range]
    omega
  rw [Canvas.row_eq_foldl_range, Canvas.pixel_foldl_bit row x0 py p q hp hq _ List.nodup_range, bodyBit_singleton]
  simp only [hcolumns]

/-- The rows of a sprite invert the pixels under their set bits. -/
theorem Canvas.pixel_rows (x0 p q : Nat) (hp : p < 64) (hq : q < 32) (rows : List Byte) (c : Canvas) (y0 : Nat) :
    (c.rows x0 y0 rows).fb.pixel p q = (c.fb.pixel p q ^^ bodyBit x0 y0 rows p q) := by
  induction rows generalizing c y0 with
  | nil => simp [Canvas.rows]
  | cons row rows ih =>
    rw [Canvas.rows, ih, Canvas.pixel_row c row x0 y0 p q hp hq, bodyBit_cons row rows, Bool.xor_assoc]

end Sys2Proof.Machine

namespace Sys2Proof.Proofs

open Sys2Proof.Machine

/-- Settles O35: the draw lays the sprite's rows from the wrapped start, and each row and each bit of a row meets pixels
that no other does. -/
theorem spriteBitsToggleTheirPixels : Obligations.SpriteBitsToggleTheirPixels := by
  intro f x y rows p q hp hq
  rw [drawSprite, Canvas.pixel_rows _ p q hp hq, spriteBit_eq_bodyBit]

end Sys2Proof.Proofs
end

section
/-! Proofs about the skips (41_control_flow.md R124 to R128): their encodings and the pc they leave. -/

namespace Sys2Proof

/-- A register index survives the four bits of its field (30_encoding.md R80). -/
theorem toNat_registerField {x : Nat} (hx : x < 16) : (BitVec.ofNat 4 x).toNat = x :=
  (BitVec.toNat_ofNat x 4).trans (Nat.mod_eq_of_lt hx)

/-- A word lies in its instruction's row: under the row's mask it is the row's bits, and the decoder reads it back. -/
theorem encoded_of_fixedBits {i : Instr} (hrow : Laws.FixedBits.Statement i) (hdecode : decode (encode i) = .ok i) :
    Claims.Encoded i i.row.mask i.row.bits := by
  obtain ⟨-, hselects⟩ := hrow
  exact ⟨beq_iff_eq.mp hselects, hdecode⟩

theorem decode_encode_op3XNN {x : Nat} (nn : Byte) (hx : x < 16) :
    decode (encode (.op3XNN x nn)) = .ok (.op3XNN x nn) := by
  simp only [encode, decode, fieldF_wordXNN, fieldX_wordXNN, fieldNN_wordXNN, toNat_registerField hx]
  rfl

theorem decode_encode_op4XNN {x : Nat} (nn : Byte) (hx : x < 16) :
    decode (encode (.op4XNN x nn)) = .ok (.op4XNN x nn) := by
  simp only [encode, decode, fieldF_wordXNN, fieldX_wordXNN, fieldNN_wordXNN, toNat_registerField hx]
  rfl

theorem decode_encode_op5XY0 {x y : Nat} (hx : x < 16) (hy : y < 16) :
    decode (encode (.op5XY0 x y)) = .ok (.op5XY0 x y) := by
  simp only [encode, decode, fieldF_wordXYN, fieldX_wordXYN, fieldY_wordXYN, fieldN_wordXYN, toNat_registerField hx,
    toNat_registerField hy]
  rfl

theorem decode_encode_op9XY0 {x y : Nat} (hx : x < 16) (hy : y < 16) :
    decode (encode (.op9XY0 x y)) = .ok (.op9XY0 x y) := by
  simp only [encode, decode, fieldF_wordXYN, fieldX_wordXYN, fieldY_wordXYN, fieldN_wordXYN, toNat_registerField hx,
    toNat_registerField hy]
  rfl

end Sys2Proof

namespace Sys2Proof.Machine

/-- A skip on equality adds 2 to the pc when the two bytes agree. -/
theorem State.skipIf_beq (s : State) (a b : Byte) :
    s.skipIf (a == b) = s.setPc (if a = b then s.pc + 2#16 else s.pc) := by
  rw [State.skipIf_eq]
  simp only [beq_iff_eq]

/-- A skip on difference leaves the pc when the two bytes agree. -/
theorem State.skipIf_bne (s : State) (a b : Byte) :
    s.skipIf (a != b) = s.setPc (if a = b then s.pc else s.pc + 2#16) := by
  rw [State.skipIf_eq]
  simp only [bne_iff_ne, ne_eq, ite_not]

/-- 3XNN on a register 0..15 (41_control_flow.md R124). -/
theorem exec_op3XNN (s : State) {x : Nat} (nn : Byte) (hx : x < 16) :
    exec (.op3XNN x nn) s = .next (s.setPc (if s.getV x = nn then s.pc + 2#16 else s.pc)) := by
  rw [← State.skipIf_beq]
  exact guardRegs_one (.op3XNN x nn) s _ hx

/-- 4XNN on a register 0..15 (41_control_flow.md R125). -/
theorem exec_op4XNN (s : State) {x : Nat} (nn : Byte) (hx : x < 16) :
    exec (.op4XNN x nn) s = .next (s.setPc (if s.getV x = nn then s.pc else s.pc + 2#16)) := by
  rw [← State.skipIf_bne]
  exact guardRegs_one (.op4XNN x nn) s _ hx

/-- 5XY0 on registers 0..15 (41_control_flow.md R126). -/
theorem exec_op5XY0 (s : State) {x y : Nat} (hx : x < 16) (hy : y < 16) :
    exec (.op5XY0 x y) s = .next (s.setPc (if s.getV x = s.getV y then s.pc + 2#16 else s.pc)) := by
  rw [← State.skipIf_beq]
  exact guardRegs_two (.op5XY0 x y) s _ hx hy

/-- 9XY0 on registers 0..15 (41_control_flow.md R127). -/
theorem exec_op9XY0 (s : State) {x y : Nat} (hx : x < 16) (hy : y < 16) :
    exec (.op9XY0 x y) s = .next (s.setPc (if s.getV x = s.getV y then s.pc else s.pc + 2#16)) := by
  rw [← State.skipIf_bne]
  exact guardRegs_two (.op9XY0 x y) s _ hx hy

end Sys2Proof.Machine

namespace Sys2Proof.Proofs

open Sys2Proof.Machine Sys2Proof.Laws

/-- Settles O20: with the register guard passed, each skip is one write of the pc, and each word lies in its row. -/
theorem skipsAddTwoWhenTrue : Obligations.SkipsAddTwoWhenTrue := by
  intro x y nn s hx hy
  refine ⟨⟨?_, exec_op3XNN s nn hx⟩, ⟨?_, exec_op4XNN s nn hx⟩, ⟨?_, exec_op5XY0 s hx hy⟩, ⟨?_, exec_op9XY0 s hx hy⟩⟩
  · exact encoded_of_fixedBits (FixedBits.op3XNN x nn) (decode_encode_op3XNN nn hx)
  · exact encoded_of_fixedBits (FixedBits.op4XNN x nn) (decode_encode_op4XNN nn hx)
  · exact encoded_of_fixedBits (FixedBits.op5XY0 x y) (decode_encode_op5XY0 hx hy)
  · exact encoded_of_fixedBits (FixedBits.op9XY0 x y) (decode_encode_op9XY0 hx hy)

end Sys2Proof.Proofs
end

section
/-! Proofs about the register loads and the arithmetic-logic instructions (42_alu.md): the encodings of family 8, the frame
of a register write, the flags as numbers, the two shapes that write VF before the result, and what each instruction
leaves. -/

namespace Sys2Proof

/-- Family 8 reads both registers back and leaves the choice to the low nibble (30_encoding.md R84). -/
theorem decode_wordXYN_family8 {x y : Nat} (n : BitVec 4) (hx : x < 16) (hy : y < 16) :
    decode (wordXYN 0x8#4 x y n) = decodeFamily8 x y n := by
  simp only [decode, fieldF_wordXYN, fieldX_wordXYN, fieldY_wordXYN, fieldN_wordXYN, toNat_registerField hx,
    toNat_registerField hy]
  rfl

theorem decode_encode_op6XNN {x : Nat} (nn : Byte) (hx : x < 16) :
    decode (encode (.op6XNN x nn)) = .ok (.op6XNN x nn) := by
  simp only [encode, decode, fieldF_wordXNN, fieldX_wordXNN, fieldNN_wordXNN, toNat_registerField hx]
  rfl

theorem decode_encode_op7XNN {x : Nat} (nn : Byte) (hx : x < 16) :
    decode (encode (.op7XNN x nn)) = .ok (.op7XNN x nn) := by
  simp only [encode, decode, fieldF_wordXNN, fieldX_wordXNN, fieldNN_wordXNN, toNat_registerField hx]
  rfl

end Sys2Proof

namespace Sys2Proof.Machine

/-! ## The frame of register writes -/

theorem OnlyRegs.refl (rs : List Nat) (s : State) : OnlyRegs rs s s :=
  ⟨rfl, fun _ _ _ => rfl, fun _ => rfl⟩

/-- Writing a listed register keeps the frame. -/
theorem OnlyRegs.setV {rs : List Nat} {s t : State} (h : OnlyRegs rs s t) {r : Nat} (hr : r ∈ rs) (b : Byte) :
    OnlyRegs rs s (t.setV r b) := by
  obtain ⟨hstate, hregs, hmem⟩ := h
  refine ⟨?_, fun q hq hqrs => ?_, hmem⟩
  · rw [hstate]
    rfl
  · rw [State.getV_setV_ne t r q b (ne_of_mem_of_not_mem hr hqrs), hregs q hq hqrs]

/-- One register write changes nothing but its register. -/
theorem onlyRegs_setV (s : State) (r : Nat) (b : Byte) : OnlyRegs [r] s (s.setV r b) :=
  (OnlyRegs.refl [r] s).setV List.mem_cons_self b

/-! ## Flags and results as numbers (42_alu.md R140, R152) -/

theorem toNat_flagByte (c : Prop) [Decidable c] : (flagByte (decide c)).toNat = if c then 1 else 0 := by
  by_cases h : c <;> simp [flagByte, h]

theorem toNat_carryOf (a b : Byte) : (carryOf a b).toNat = if 255 < a.toNat + b.toNat then 1 else 0 :=
  toNat_flagByte _

theorem toNat_noBorrowOf (a b : Byte) : (noBorrowOf a b).toNat = if b.toNat ≤ a.toNat then 1 else 0 :=
  toNat_flagByte _

/-- The byte difference is the difference modulo 256, with the borrow's 256 added before the subtraction. -/
theorem toNat_sub_byte (a b : Byte) : (a - b).toNat = (256 + a.toNat - b.toNat) % 256 := by
  rw [BitVec.toNat_sub, Nat.sub_add_comm b.isLt.le]

theorem toNat_shiftedOutRight (a : Byte) : (shiftedOutRight a).toNat = a.toNat % 2 := by
  rw [shiftedOutRight, BitVec.toNat_and]
  exact Nat.and_one_is_mod a.toNat

theorem toNat_shiftRight_byte (a : Byte) : (a >>> 1).toNat = a.toNat / 2 := by
  rw [BitVec.toNat_ushiftRight, Nat.shiftRight_eq_div_pow]

theorem toNat_shiftedOutLeft (a : Byte) : (shiftedOutLeft a).toNat = a.toNat / 128 := by
  have hbit : (shiftedOutLeft a).toNat = a.toNat / 128 % 2 := by
    rw [shiftedOutLeft, BitVec.toNat_and, BitVec.toNat_ushiftRight, Nat.shiftRight_eq_div_pow]
    exact Nat.and_one_is_mod _
  have := a.isLt
  omega

theorem toNat_shiftLeft_byte (a : Byte) : (a <<< 1).toNat = (2 * a.toNat) % 256 := by
  rw [BitVec.toNat_shiftLeft, Nat.shiftLeft_eq, Nat.mul_comm]

/-- The bit shifted out to the right is lost when it is shifted right itself. -/
theorem toNat_shiftRight_shiftedOutRight (a : Byte) : (shiftedOutRight a >>> 1).toNat = 0 := by
  rw [toNat_shiftRight_byte, toNat_shiftedOutRight]
  omega

/-- The bit shifted out to the left is doubled when it is shifted left itself. -/
theorem toNat_shiftLeft_shiftedOutLeft (a : Byte) : (shiftedOutLeft a <<< 1).toNat = 2 * (a.toNat / 128) := by
  rw [toNat_shiftLeft_byte, toNat_shiftedOutLeft]
  have := a.isLt
  omega

/-! ## The flag, then the result (42_alu.md R154) -/

section

variable (s : State) (x y : Nat) (flag result : Byte → Byte → Byte)

theorem onlyRegs_flagThenResult : OnlyRegs [x, VF] s (s.flagThenResult x y flag result) :=
  ((OnlyRegs.refl [x, VF] s).setV (by simp) _).setV (by simp) _

/-- The result reads the new VF wherever VF is an operand (42_alu.md R154). -/
theorem State.getV_flagThenResult_dest (hx : x < 16) :
    (s.flagThenResult x y flag result).getV x =
      result (if VF = x then flag (s.getV x) (s.getV y) else s.getV x)
        (if VF = y then flag (s.getV x) (s.getV y) else s.getV y) := by
  rw [State.flagThenResult, State.getV_setV_same _ _ _ hx, State.getV_setV _ _ x _ (by decide),
    State.getV_setV _ _ y _ (by decide)]

/-- VF keeps the flag when it is not the destination. -/
theorem State.getV_flagThenResult_flag {x : Nat} (hx : x ≠ VF) :
    (s.flagThenResult x y flag result).getV VF = flag (s.getV x) (s.getV y) := by
  rw [State.flagThenResult, State.getV_setV_ne _ _ _ _ hx, State.getV_setV_same _ _ _ (by decide)]

/-- The two statements on numbers, for each of the four cases of VF as an operand: what VF holds where it keeps the flag,
and what the destination holds. `flagN` and `resultN` are the flag and the result as functions of the operands' values. -/
theorem State.toNat_flagThenResult (flagN resultN : Nat → Nat → Nat) (hx : x < 16)
    (hflag : ∀ a b, (flag a b).toNat = flagN a.toNat b.toNat)
    (hresult : ∀ a b, (result a b).toNat = resultN a.toNat b.toNat) :
    let t := s.flagThenResult x y flag result
    let a := (s.getV x).toNat
    let b := (s.getV y).toNat
    (x ≠ 15 → (t.getV 15).toNat = flagN a b) ∧
      (x ≠ 15 → y ≠ 15 → (t.getV x).toNat = resultN a b) ∧
      (x ≠ 15 → y = 15 → (t.getV x).toNat = resultN a (flagN a b)) ∧
      (x = 15 → y ≠ 15 → (t.getV 15).toNat = resultN (flagN a b) b) ∧
      (x = 15 → y = 15 → (t.getV 15).toNat = resultN (flagN a b) (flagN a b)) := by
  have hdest := s.getV_flagThenResult_dest x y flag result hx
  refine ⟨?_, ?_, ?_, ?_, ?_⟩
  · intro hx15
    rw [State.getV_flagThenResult_flag s y flag result hx15, hflag]
  · intro hx15 hy15
    rw [hdest, if_neg hx15.symm, if_neg hy15.symm, hresult]
  · rintro hx15 rfl
    rw [hdest, if_neg hx15.symm, if_pos rfl, hresult, hflag]
  · rintro rfl hy15
    rw [hdest, if_pos rfl, if_neg hy15.symm, hresult, hflag]
  · rintro rfl rfl
    rw [hdest, if_pos rfl, hresult, hflag]

end

/-! ## The shifts (42_alu.md R149, R151) -/

/-- The byte a shift reads: `V[Y]` under quirk shiftLoadsY, else `V[X]`. -/
def State.shiftSource (s : State) (x y : Nat) : Byte := if s.config.shiftLoadsY then s.getV y else s.getV x

theorem State.toNat_shiftSource (s : State) (x y : Nat) :
    (s.shiftSource x y).toNat = if s.config.shiftLoadsY then (s.getV y).toNat else (s.getV x).toNat :=
  apply_ite BitVec.toNat _ _ _

section

variable (s : State) (x y : Nat) (bit shifted : Byte → Byte)

/-- A shift is a flag and a result of `V[X]` alone, once `V[X]` holds the byte to shift. -/
theorem State.shiftInPlace_eq : s.shiftInPlace x y bit shifted =
    (s.setV x (s.shiftSource x y)).flagThenResult x x (fun a _ => bit a) (fun a _ => shifted a) := by
  have hsource : (if s.config.shiftLoadsY then s.setV x (s.getV y) else s) = s.setV x (s.shiftSource x y) := by
    unfold State.shiftSource
    split
    · rfl
    · exact (s.setV_getV x).symm
  rw [State.shiftInPlace, hsource]
  rfl

theorem onlyRegs_shiftInPlace : OnlyRegs [x, VF] s (s.shiftInPlace x y bit shifted) := by
  rw [State.shiftInPlace_eq]
  exact (((OnlyRegs.refl [x, VF] s).setV (by simp) _).setV (by simp) _).setV (by simp) _

/-- The shifted value reads the new VF when VF is the register shifted (42_alu.md R154). -/
theorem State.getV_shiftInPlace_dest (hx : x < 16) :
    (s.shiftInPlace x y bit shifted).getV x =
      shifted (if VF = x then bit (s.shiftSource x y) else s.shiftSource x y) := by
  rw [State.shiftInPlace_eq, State.getV_flagThenResult_dest _ _ _ _ _ hx, State.getV_setV_same s x _ hx]

/-- VF keeps the bit shifted out when it is not the register shifted. -/
theorem State.getV_shiftInPlace_flag {x : Nat} (hx : x < 16) (hx15 : x ≠ VF) :
    (s.shiftInPlace x y bit shifted).getV VF = bit (s.shiftSource x y) := by
  rw [State.shiftInPlace_eq, State.getV_flagThenResult_flag _ _ _ _ hx15, State.getV_setV_same s x _ hx]

end

/-- The registers a shift accesses are its operands. -/
theorem lt_of_mem_shiftRegs {c : Config} {x y r : Nat} (hx : x < 16) (hy : y < 16) (hr : r ∈ shiftRegs c x y) :
    r < 16 := by
  have hxy : r = x ∨ r = y := by
    unfold shiftRegs at hr
    split at hr <;> simp_all
  obtain rfl | rfl := hxy <;> assumption

/-! ## The instructions on registers 0..15 (42_alu.md R141 to R151) -/

section

variable (s : State) {x y : Nat} (nn : Byte) (hx : x < 16) (hy : y < 16)

include hx

theorem exec_op6XNN : exec (.op6XNN x nn) s = .next (s.setV x nn) :=
  guardRegs_one (.op6XNN x nn) s _ hx

theorem exec_op7XNN : exec (.op7XNN x nn) s = .next (s.setV x (s.getV x + nn)) :=
  guardRegs_one (.op7XNN x nn) s _ hx

include hy

theorem exec_op8XY1 : exec (.op8XY1 x y) s = .next (s.setV x (s.getV x ||| s.getV y)) :=
  guardRegs_two (.op8XY1 x y) s _ hx hy

theorem exec_op8XY2 : exec (.op8XY2 x y) s = .next (s.setV x (s.getV x &&& s.getV y)) :=
  guardRegs_two (.op8XY2 x y) s _ hx hy

theorem exec_op8XY3 : exec (.op8XY3 x y) s = .next (s.setV x (s.getV x ^^^ s.getV y)) :=
  guardRegs_two (.op8XY3 x y) s _ hx hy

theorem exec_op8XY4 : exec (.op8XY4 x y) s = .next (s.flagThenResult x y carryOf (fun a b => a + b)) :=
  guardRegs_two (.op8XY4 x y) s _ hx hy

theorem exec_op8XY5 : exec (.op8XY5 x y) s = .next (s.flagThenResult x y noBorrowOf (fun a b => a - b)) :=
  guardRegs_two (.op8XY5 x y) s _ hx hy

theorem exec_op8XY7 : exec (.op8XY7 x y) s =
    .next (s.flagThenResult x y (fun a b => noBorrowOf b a) (fun a b => b - a)) :=
  guardRegs_two (.op8XY7 x y) s _ hx hy

theorem exec_op8XY6 : exec (.op8XY6 x y) s =
    .next (s.shiftInPlace x y shiftedOutRight (fun a => a >>> 1)) :=
  guardRegs_ok (.op8XY6 x y) s _ fun _ => lt_of_mem_shiftRegs hx hy

theorem exec_op8XYE : exec (.op8XYE x y) s =
    .next (s.shiftInPlace x y shiftedOutLeft (fun a => a <<< 1)) :=
  guardRegs_ok (.op8XYE x y) s _ fun _ => lt_of_mem_shiftRegs hx hy

end

end Sys2Proof.Machine

namespace Sys2Proof.Proofs

open Sys2Proof.Machine Sys2Proof.Laws

/-- Settles O10: both are one register write, of the immediate or of the byte sum. -/
theorem immediateLoadAndAdd : Obligations.ImmediateLoadAndAdd := by
  intro x nn s hx
  refine ⟨⟨?_, _, exec_op6XNN s nn hx, State.getV_setV_same s x _ hx, onlyRegs_setV s x _⟩,
    ⟨?_, _, exec_op7XNN s nn hx, ?_, onlyRegs_setV s x _⟩⟩
  · exact encoded_of_fixedBits (FixedBits.op6XNN x nn) (decode_encode_op6XNN nn hx)
  · exact encoded_of_fixedBits (FixedBits.op7XNN x nn) (decode_encode_op7XNN nn hx)
  · rw [State.getV_setV_same s x _ hx]
    exact BitVec.toNat_add _ _

/-- Settles O11: each of the four is one register write. -/
theorem moveAndLogicWriteOnlyDestination : Obligations.MoveAndLogicWriteOnlyDestination := by
  intro x y s hx hy
  refine ⟨⟨?_, _, exec_op8XY0 s hx hy, State.getV_setV_same s x _ hx, onlyRegs_setV s x _⟩,
    ⟨?_, _, exec_op8XY1 s hx hy, State.getV_setV_same s x _ hx, onlyRegs_setV s x _⟩,
    ⟨?_, _, exec_op8XY2 s hx hy, State.getV_setV_same s x _ hx, onlyRegs_setV s x _⟩,
    ⟨?_, _, exec_op8XY3 s hx hy, State.getV_setV_same s x _ hx, onlyRegs_setV s x _⟩⟩
  · exact encoded_of_fixedBits (FixedBits.op8XY0 x y) (decode_wordXYN_family8 0x0#4 hx hy)
  · exact encoded_of_fixedBits (FixedBits.op8XY1 x y) (decode_wordXYN_family8 0x1#4 hx hy)
  · exact encoded_of_fixedBits (FixedBits.op8XY2 x y) (decode_wordXYN_family8 0x2#4 hx hy)
  · exact encoded_of_fixedBits (FixedBits.op8XY3 x y) (decode_wordXYN_family8 0x3#4 hx hy)

/-- Settles O12: VF gets the carry, and the sum reads it wherever VF is an operand; with VF as both, the carry is doubled
without a wrap. -/
theorem addWritesCarryThenSum : Obligations.AddWritesCarryThenSum := by
  intro x y s hx hy a b c
  have hc : c ≤ 1 := by
    unfold c
    split <;> decide
  obtain ⟨hVF, hneither, hyVF, hxVF, hboth⟩ := s.toNat_flagThenResult x y carryOf (fun a b => a + b)
    (fun a b => if 255 < a + b then 1 else 0) (fun a b => (a + b) % 256) hx toNat_carryOf BitVec.toNat_add
  refine ⟨?_, _, exec_op8XY4 s hx hy, onlyRegs_flagThenResult s x y _ _, hVF, hneither, hyVF, hxVF, fun hx15 hy15 => ?_⟩
  · exact encoded_of_fixedBits (FixedBits.op8XY4 x y) (decode_wordXYN_family8 0x4#4 hx hy)
  · have hsum : _ = (c + c) % 256 := hboth hx15 hy15
    omega

/-- Settles O13: VF gets the no-borrow, and the difference reads it wherever VF is an operand; 8XY7 exchanges the
operands of both. -/
theorem subtractWritesNoBorrowThenDifference : Obligations.SubtractWritesNoBorrowThenDifference := by
  intro x y s hx hy a b f g
  have hcancel (n : Nat) : (256 + n - n) % 256 = 0 := by rw [Nat.add_sub_cancel]
  constructor
  · obtain ⟨hVF, hneither, hyVF, hxVF, hboth⟩ := s.toNat_flagThenResult x y noBorrowOf (fun a b => a - b)
      (fun a b => if b ≤ a then 1 else 0) (fun a b => (256 + a - b) % 256) hx toNat_noBorrowOf toNat_sub_byte
    refine ⟨?_, _, exec_op8XY5 s hx hy, onlyRegs_flagThenResult s x y _ _, hVF, hneither, hyVF, hxVF,
      fun hx15 hy15 => (hboth hx15 hy15).trans (hcancel f)⟩
    exact encoded_of_fixedBits (FixedBits.op8XY5 x y) (decode_wordXYN_family8 0x5#4 hx hy)
  · obtain ⟨hVF, hneither, hyVF, hxVF, hboth⟩ := s.toNat_flagThenResult x y (fun a b => noBorrowOf b a)
      (fun a b => b - a) (fun a b => if a ≤ b then 1 else 0) (fun a b => (256 + b - a) % 256) hx
      (fun a b => toNat_noBorrowOf b a) (fun a b => toNat_sub_byte b a)
    refine ⟨?_, _, exec_op8XY7 s hx hy, onlyRegs_flagThenResult s x y _ _, hVF, hneither, hyVF, hxVF,
      fun hx15 hy15 => (hboth hx15 hy15).trans (hcancel g)⟩
    exact encoded_of_fixedBits (FixedBits.op8XY7 x y) (decode_wordXYN_family8 0x7#4 hx hy)

/-- Settles O14: a shift is a flag and a result of the byte it reads; VF as the register shifted reads the bit. -/
theorem shiftWritesBitThenShifted : Obligations.ShiftWritesBitThenShifted := by
  intro x y s hx hy v
  have hv : (s.shiftSource x y).toNat = v := State.toNat_shiftSource s x y
  refine ⟨⟨?_, _, exec_op8XY6 s hx hy, onlyRegs_shiftInPlace s x y _ _, fun hx15 => ⟨?_, ?_⟩, ?_⟩,
    ⟨?_, _, exec_op8XYE s hx hy, onlyRegs_shiftInPlace s x y _ _, fun hx15 => ⟨?_, ?_⟩, ?_⟩⟩
  · exact encoded_of_fixedBits (FixedBits.op8XY6 x y) (decode_wordXYN_family8 0x6#4 hx hy)
  · rw [State.getV_shiftInPlace_dest s x y _ _ hx, if_neg hx15.symm, toNat_shiftRight_byte, hv]
  · rw [State.getV_shiftInPlace_flag s y _ _ hx hx15, toNat_shiftedOutRight, hv]
  · rintro rfl
    rw [State.getV_shiftInPlace_dest s _ y _ _ hx, if_pos rfl, toNat_shiftRight_shiftedOutRight]
  · exact encoded_of_fixedBits (FixedBits.op8XYE x y) (decode_wordXYN_family8 0xE#4 hx hy)
  · rw [State.getV_shiftInPlace_dest s x y _ _ hx, if_neg hx15.symm, toNat_shiftLeft_byte, hv]
  · rw [State.getV_shiftInPlace_flag s y _ _ hx hx15, toNat_shiftedOutLeft, hv]
  · rintro rfl
    rw [State.getV_shiftInPlace_dest s _ y _ _ hx, if_pos rfl, toNat_shiftLeft_shiftedOutLeft, hv]

end Sys2Proof.Proofs
end

section
/-! Proofs about the index register (43_index_memory.md R170, R171): the encodings of ANNN and FX1E, the frame of an index
write, and the index and flag each instruction leaves. -/

namespace Sys2Proof

/-- An address immediate keeps its value in the index register (43_index_memory.md R170). -/
@[simp] theorem toNat_zext16 (a : Addr12) : (zext16 a).toNat = a.toNat :=
  BitVec.toNat_setWidth_of_le (by decide)

theorem decode_encode_opANNN (nnn : Addr12) : decode (encode (.opANNN nnn)) = .ok (.opANNN nnn) := by
  simp only [encode, decode, fieldF_wordNNN, fieldNNN_wordNNN]
  rfl

/-- Family F reads its register back and leaves the choice to the low byte (30_encoding.md R84). -/
theorem decode_wordXNN_familyF {x : Nat} (nn : Byte) (hx : x < 16) :
    decode (wordXNN 0xF#4 x nn) = decodeFamilyF x nn := by
  simp only [decode, fieldF_wordXNN, fieldX_wordXNN, fieldNN_wordXNN, toNat_registerField hx]
  rfl

end Sys2Proof

namespace Sys2Proof.Machine

/-- An index write after register writes changes the index besides. -/
theorem OnlyRegs.setIdx {rs : List Nat} {s t : State} (h : OnlyRegs rs s t) (w : Word) :
    OnlyRegsAndIndex rs s (t.setIdx w) := by
  obtain ⟨hstate, hregs, hmem⟩ := h
  refine ⟨?_, hregs, hmem⟩
  rw [hstate]
  rfl

theorem toNat_indexOverflowOf (i : Word) (b : Byte) :
    (indexOverflowOf i b).toNat = if 0xFFF < i.toNat + b.toNat then 1 else 0 :=
  toNat_flagByte _

/-- ANNN is one index write (43_index_memory.md R170). -/
theorem exec_opANNN (nnn : Addr12) (s : State) : exec (.opANNN nnn) s = .next (s.setIdx (zext16 nnn)) := rfl

/-- The state FX1E adds in: under quirk indexOverflowFlag VF already holds the overflow (43_index_memory.md R171). -/
def State.flagIndexOverflow (s : State) (x : Nat) : State :=
  if s.config.indexOverflowFlag then s.setV VF (indexOverflowOf s.idx (s.getV x)) else s

theorem State.flagIndexOverflow_on {s : State} (x : Nat) (h : s.config.indexOverflowFlag = true) :
    s.flagIndexOverflow x = s.setV VF (indexOverflowOf s.idx (s.getV x)) :=
  if_pos h

theorem State.flagIndexOverflow_off {s : State} (x : Nat) (h : s.config.indexOverflowFlag = false) :
    s.flagIndexOverflow x = s :=
  if_neg (Bool.eq_false_iff.mp h)

/-- FX1E on a register 0..15 is the flag write, if any, then one index write from the state it leaves. -/
theorem exec_opFX1E (s : State) {x : Nat} (hx : x < 16) :
    exec (.opFX1E x) s = .next ((s.flagIndexOverflow x).setIdx
      (wrapIndex (s.flagIndexOverflow x).idx ((s.flagIndexOverflow x).getV x).toNat)) :=
  guardRegs_one (.opFX1E x) s _ hx

end Sys2Proof.Machine

namespace Sys2Proof.Proofs

open Sys2Proof.Machine Sys2Proof.Laws

/-- Settles O21: ANNN is one index write of the immediate, whose value the wider register keeps. -/
theorem loadIndexSetsIndex : Obligations.LoadIndexSetsIndex := fun nnn s =>
  ⟨encoded_of_fixedBits (FixedBits.opANNN nnn) (decode_encode_opANNN nnn),
    _, exec_opANNN nnn s, toNat_zext16 nnn, rfl⟩

/-- Settles O22: the sum reads the state after the flag write, so it reads the new VF exactly when the quirk is on and VF
is the register added. -/
theorem addIndexWrapsAndFlags : Obligations.AddIndexWrapsAndFlags := by
  intro x s hx v c
  refine ⟨encoded_of_fixedBits (FixedBits.opFX1E x) (decode_wordXNN_familyF 0x1E#8 hx), _, exec_opFX1E s hx,
    fun hon => ?on, fun hoff => ?off⟩
  case on =>
    have hflag : (indexOverflowOf s.idx (s.getV x)).toNat = c := toNat_indexOverflowOf s.idx (s.getV x)
    rw [State.flagIndexOverflow_on x hon]
    refine ⟨?_, (onlyRegs_setV s VF _).setIdx _, fun hx15 => ?_, ?_⟩
    · rw [State.getV_setIdx, State.getV_setV_same s VF _ (by decide), hflag]
    · rw [State.setIdx_idx, wrapIndex_toNat, State.setV_idx, State.getV_setV_ne s VF x _ hx15.symm]
    · rintro rfl
      rw [State.setIdx_idx, wrapIndex_toNat, State.setV_idx, State.getV_setV_same s VF _ hx, hflag]
  case off =>
    rw [State.flagIndexOverflow_off x hoff]
    exact ⟨wrapIndex_toNat s.idx v, (OnlyRegs.refl [] s).setIdx _⟩

end Sys2Proof.Proofs
end

section
/-! Proofs about the delay timer (44_timer.md R190): FX07 is one register write of the timer's value. -/

namespace Sys2Proof.Machine

/-- FX07 on a register 0..15 is one write of the timer to that register (44_timer.md R190). -/
theorem exec_opFX07 (s : State) {x : Nat} (hx : x < 16) : exec (.opFX07 x) s = .next (s.setV x s.dt) :=
  guardRegs_one (.opFX07 x) s _ hx

end Sys2Proof.Machine

namespace Sys2Proof.Proofs

open Sys2Proof.Machine Sys2Proof.Laws

/-- Settles O29: FX07 is one register write of the timer, so its register reads the timer back and the write's frame is
the instruction's. -/
theorem readTimerLoadsRegister : Obligations.ReadTimerLoadsRegister := by
  intro x s hx
  refine ⟨?_, _, exec_opFX07 s hx, State.getV_setV_same s x s.dt hx, onlyRegs_setV s x s.dt⟩
  exact encoded_of_fixedBits (FixedBits.opFX07 x) (decode_wordXNN_familyF 0x07#8 hx)

end Sys2Proof.Proofs
end

section
/-! Proofs about the configuration (70_reset_and_hazards.md R249): the shared operations, then every instruction, then every
atomic step leave it as it is. -/

namespace Sys2Proof.Machine

/-! ## The composite state updates -/

section

variable (s : State)

@[simp] theorem State.skipIf_config (c : Bool) : (s.skipIf c).config = s.config := by
  rw [State.skipIf_eq, State.setPc_config]

@[simp] theorem State.flagThenResult_config (x y : Nat) (flag result : Byte → Byte → Byte) :
    (s.flagThenResult x y flag result).config = s.config := rfl

@[simp] theorem State.shiftInPlace_config (x y : Nat) (bit shifted : Byte → Byte) :
    (s.shiftInPlace x y bit shifted).config = s.config := by
  rw [State.shiftInPlace_eq, State.flagThenResult_config, State.setV_config]

@[simp] theorem State.flagIndexOverflow_config (x : Nat) : (s.flagIndexOverflow x).config = s.config := by
  unfold State.flagIndexOverflow
  split <;> rfl

@[simp] theorem State.stepIndex_config (n : Nat) : (s.stepIndex n).config = s.config := by
  rw [State.stepIndex_eq, State.setIdx_config]

@[simp] theorem State.loadBlock_config (r : Nat) (bs : List Byte) : (s.loadBlock r bs).config = s.config := by
  rw [State.loadBlock_eq]

@[simp] theorem State.drawRows_config (x y : Nat) (rows : List Byte) : (s.drawRows x y rows).config = s.config := rfl

@[simp] theorem State.timerDecay_config : s.timerDecay.config = s.config := by
  unfold State.timerDecay
  split <;> rfl

@[simp] theorem State.afterChoice_config : s.afterChoice.config = s.config := rfl

end

/-! ## The shared operations of the instructions -/

/-- If the result is a next state, its configuration is that of `s`. -/
def Result.KeepsConfig (s : State) (r : Result) : Prop := ∀ t, r = .next t → t.config = s.config

variable {s : State}

theorem keepsConfig_next {t : State} (h : t.config = s.config) : Result.KeepsConfig s (.next t) := by
  rintro _ ⟨⟩
  exact h

theorem keepsConfig_raiseWith (k : FaultKind) (w : Word) (access : Option (Nat × Nat)) :
    Result.KeepsConfig s (raiseWith k w access s) :=
  keepsConfig_next rfl

theorem keepsConfig_raiseFetch : Result.KeepsConfig s (raiseFetch s) :=
  keepsConfig_next rfl

theorem keepsConfig_raise (k : FaultKind) (i : Instr) (access : Option (Nat × Nat)) :
    Result.KeepsConfig s (raise k i access s) :=
  keepsConfig_raiseWith k (encode i) access

theorem keepsConfig_guardRegs {rs : List Nat} {i : Instr} {run : Result} (h : Result.KeepsConfig s run) :
    Result.KeepsConfig s (guardRegs rs i s run) := by
  obtain hrun | hraise := guardRegs_eq rs i s run
  · rwa [hrun]
  · rw [hraise]
    exact keepsConfig_raise _ _ _

/-- A guarded instruction with one next state. -/
theorem keepsConfig_guardRegs_next {rs : List Nat} {i : Instr} {t : State} (h : t.config = s.config) :
    Result.KeepsConfig s (guardRegs rs i s (.next t)) :=
  keepsConfig_guardRegs (keepsConfig_next h)

theorem keepsConfig_storeBytes {i : Instr} {a : Nat} {bs : List Byte} {rest : State → State}
    (h : ∀ t, (rest t).config = t.config) : Result.KeepsConfig s (storeBytes i a bs s rest) := by
  cases hw : mayWrite s.config a bs.length with
  | true =>
    rw [storeBytes_ok rest hw]
    exact keepsConfig_next (h _)
  | false =>
    rw [storeBytes_bad rest hw]
    exact keepsConfig_raise _ _ _

theorem keepsConfig_loadBytes {i : Instr} {a n : Nat} {rest : List Byte → State}
    (h : ∀ bs, (rest bs).config = s.config) : Result.KeepsConfig s (loadBytes i a n s rest) := by
  cases hb : inBounds a n with
  | true =>
    rw [loadBytes_ok rest hb]
    exact keepsConfig_next (h _)
  | false =>
    rw [loadBytes_bad rest hb]
    exact keepsConfig_raise _ _ _

/-! ## Instructions and atomic steps -/

theorem keepsConfig_exec00EE (s : State) : Result.KeepsConfig s (exec00EE s) := by
  unfold exec00EE
  split
  · exact keepsConfig_raise _ _ _
  · exact keepsConfig_next rfl

theorem keepsConfig_exec1NNN (nnn : Addr12) (s : State) : Result.KeepsConfig s (exec1NNN nnn s) := by
  refine keepsConfig_next ?_
  split <;> rfl

theorem keepsConfig_exec2NNN (nnn : Addr12) (s : State) : Result.KeepsConfig s (exec2NNN nnn s) := by
  unfold exec2NNN
  split
  · exact keepsConfig_raise _ _ _
  · exact keepsConfig_next rfl

theorem keepsConfig_exec (i : Instr) (s : State) : Result.KeepsConfig s (exec i s) := by
  cases i with
  | op00E0 | opANNN => exact keepsConfig_next rfl
  | op00EE => exact keepsConfig_exec00EE s
  | op1NNN nnn => exact keepsConfig_exec1NNN nnn s
  | op2NNN nnn => exact keepsConfig_exec2NNN nnn s
  | op3XNN | op4XNN | op5XY0 | op9XY0 => exact keepsConfig_guardRegs_next (s.skipIf_config _)
  | op6XNN | op7XNN | op8XY0 | op8XY1 | op8XY2 | op8XY3 | opCXNN | opFX07 | opFX15 | opFX29 =>
    exact keepsConfig_guardRegs_next rfl
  | op8XY4 | op8XY5 | op8XY7 => exact keepsConfig_guardRegs_next (s.flagThenResult_config _ _ _ _)
  | op8XY6 | op8XYE => exact keepsConfig_guardRegs_next (s.shiftInPlace_config _ _ _ _)
  | opFX1E x => exact keepsConfig_guardRegs_next (s.flagIndexOverflow_config x)
  | opFX33 => exact keepsConfig_guardRegs (keepsConfig_storeBytes fun _ => rfl)
  | opFX55 => exact keepsConfig_guardRegs (keepsConfig_storeBytes fun t => t.stepIndex_config _)
  | opFX65 =>
    exact keepsConfig_guardRegs (keepsConfig_loadBytes fun bs =>
      ((s.loadBlock 0 bs).stepIndex_config _).trans (s.loadBlock_config 0 bs))
  | opDXYN => exact keepsConfig_guardRegs (keepsConfig_loadBytes fun rows => s.drawRows_config _ _ rows)

theorem keepsConfig_tick (s : State) : Result.KeepsConfig s (tick s) := by
  obtain ⟨-, h⟩ | ⟨w, -, -, h⟩ | ⟨w, i, -, -, h⟩ := tick_cases s <;> rw [h]
  · exact keepsConfig_raiseFetch
  · exact keepsConfig_raiseWith (s := s.advancePc) _ w none
  · exact keepsConfig_exec i s.advancePc

theorem keepsConfig_perform (a : Action) (s : State) : Result.KeepsConfig s (perform a s) := by
  cases a with
  | tick => exact keepsConfig_tick s
  | timerDecay => exact keepsConfig_next s.timerDecay_config
  | refresh | stop => exact keepsConfig_next rfl

end Sys2Proof.Machine

namespace Sys2Proof.Proofs

open Sys2Proof.Machine

/-- Settles O44: the final render changes an output and a mark, the choice of the next atomic step only the scheduler's
data, and no action writes the configuration. -/
theorem configurationIsConstant : Obligations.ConfigurationIsConstant := by
  intro s t h
  obtain ⟨-, -, -, -, rfl⟩ | ⟨-, hperform⟩ := step_next_cases h
  · rfl
  · exact (keepsConfig_perform s.nextAction s.afterChoice t hperform).trans s.afterChoice_config

end Sys2Proof.Proofs
end

section
/-! Proofs about the encoding (30_encoding.md R80 to R85): the decoder reads every well-formed instruction back from its
word, the word of a decoded instruction is the word decoded, and the words without a row are the illegal ones. -/

namespace Sys2Proof

/-! ## Decoding an encoded instruction -/

theorem decode_encode_op1NNN (nnn : Addr12) : decode (encode (.op1NNN nnn)) = .ok (.op1NNN nnn) := by
  simp only [encode, decode, fieldF_wordNNN, fieldNNN_wordNNN]
  rfl

theorem decode_encode_op2NNN (nnn : Addr12) : decode (encode (.op2NNN nnn)) = .ok (.op2NNN nnn) := by
  simp only [encode, decode, fieldF_wordNNN, fieldNNN_wordNNN]
  rfl

theorem decode_encode_opCXNN {x : Nat} (nn : Byte) (hx : x < 16) :
    decode (encode (.opCXNN x nn)) = .ok (.opCXNN x nn) := by
  simp only [encode, decode, fieldF_wordXNN, fieldX_wordXNN, fieldNN_wordXNN, toNat_registerField hx]
  rfl

theorem decode_encode_opDXYN {x y n : Nat} (hx : x < 16) (hy : y < 16) (hn : n < 16) :
    decode (encode (.opDXYN x y n)) = .ok (.opDXYN x y n) := by
  simp only [encode, decode, fieldF_wordXYN, fieldX_wordXYN, fieldY_wordXYN, fieldN_wordXYN, toNat_registerField hx,
    toNat_registerField hy, toNat_registerField hn]
  rfl

@[simp] theorem regOk_iff (r : Nat) : regOk r = true ↔ r < 16 := decide_eq_true_iff

@[simp] theorem countOk_iff (n : Nat) : countOk n = true ↔ n < 16 := decide_eq_true_iff

/-- The decoder reads a well-formed instruction back from its word, row by row of 30_encoding.md R81. -/
theorem decode_encode {i : Instr} (h : i.wf = true) : decode (encode i) = .ok i := by
  cases i <;> simp only [Instr.wf, Bool.and_eq_true, regOk_iff, countOk_iff] at h
  case op00E0 => rfl
  case op00EE => rfl
  case op1NNN nnn => exact decode_encode_op1NNN nnn
  case op2NNN nnn => exact decode_encode_op2NNN nnn
  case opANNN nnn => exact decode_encode_opANNN nnn
  case op3XNN x nn => exact decode_encode_op3XNN nn h
  case op4XNN x nn => exact decode_encode_op4XNN nn h
  case op6XNN x nn => exact decode_encode_op6XNN nn h
  case op7XNN x nn => exact decode_encode_op7XNN nn h
  case opCXNN x nn => exact decode_encode_opCXNN nn h
  case op5XY0 x y => exact decode_encode_op5XY0 h.1 h.2
  case op9XY0 x y => exact decode_encode_op9XY0 h.1 h.2
  case opDXYN x y n => exact decode_encode_opDXYN h.1.1 h.1.2 h.2
  case op8XY0 | op8XY1 | op8XY2 | op8XY3 | op8XY4 | op8XY5 | op8XY6 | op8XY7 | op8XYE =>
    exact decode_wordXYN_family8 _ h.1 h.2
  case opFX07 | opFX15 | opFX1E | opFX29 | opFX33 | opFX55 | opFX65 => exact decode_wordXNN_familyF _ h

/-- Every instruction's row is in the table and its word selects that row. -/
theorem fixedBits (i : Instr) : Laws.FixedBits.Statement i := by
  cases i with
  | op00E0 => exact Laws.FixedBits.op00E0
  | op00EE => exact Laws.FixedBits.op00EE
  | op1NNN nnn => exact Laws.FixedBits.op1NNN nnn
  | op2NNN nnn => exact Laws.FixedBits.op2NNN nnn
  | op3XNN x nn => exact Laws.FixedBits.op3XNN x nn
  | op4XNN x nn => exact Laws.FixedBits.op4XNN x nn
  | op5XY0 x y => exact Laws.FixedBits.op5XY0 x y
  | op6XNN x nn => exact Laws.FixedBits.op6XNN x nn
  | op7XNN x nn => exact Laws.FixedBits.op7XNN x nn
  | op8XY0 x y => exact Laws.FixedBits.op8XY0 x y
  | op8XY1 x y => exact Laws.FixedBits.op8XY1 x y
  | op8XY2 x y => exact Laws.FixedBits.op8XY2 x y
  | op8XY3 x y => exact Laws.FixedBits.op8XY3 x y
  | op8XY4 x y => exact Laws.FixedBits.op8XY4 x y
  | op8XY5 x y => exact Laws.FixedBits.op8XY5 x y
  | op8XY6 x y => exact Laws.FixedBits.op8XY6 x y
  | op8XY7 x y => exact Laws.FixedBits.op8XY7 x y
  | op8XYE x y => exact Laws.FixedBits.op8XYE x y
  | op9XY0 x y => exact Laws.FixedBits.op9XY0 x y
  | opANNN nnn => exact Laws.FixedBits.opANNN nnn
  | opCXNN x nn => exact Laws.FixedBits.opCXNN x nn
  | opDXYN x y n => exact Laws.FixedBits.opDXYN x y n
  | opFX07 x => exact Laws.FixedBits.opFX07 x
  | opFX15 x => exact Laws.FixedBits.opFX15 x
  | opFX1E x => exact Laws.FixedBits.opFX1E x
  | opFX29 x => exact Laws.FixedBits.opFX29 x
  | opFX33 x => exact Laws.FixedBits.opFX33 x
  | opFX55 x => exact Laws.FixedBits.opFX55 x
  | opFX65 x => exact Laws.FixedBits.opFX65 x

/-- A well-formed instruction's encoding lies in its row and decodes back to it. -/
theorem encoded_of_wf {i : Instr} (h : i.wf = true) : Claims.Encoded i i.row.mask i.row.bits :=
  encoded_of_fixedBits (fixedBits i) (decode_encode h)

/-! ## Encoding a decoded instruction -/

/-- A word is its family nibble and its address field. -/
theorem wordNNN_fields (w : Word) : wordNNN (fieldF w) (fieldNNN w) = w :=
  BitVec.extractLsb'_append_extractLsb'

/-- A word is its family nibble, its register field and its low byte. -/
theorem wordXNN_fields (w : Word) : wordXNN (fieldF w) (fieldX w).toNat (fieldNN w) = w := by
  have hlow : fieldX w ++ fieldNN w = fieldNNN w := BitVec.extractLsb'_append_extractLsb'_eq_extractLsb' rfl
  rw [wordXNN, BitVec.ofNat_toNat, BitVec.setWidth_eq, hlow]
  exact wordNNN_fields w

/-- A word is its four nibbles. -/
theorem wordXYN_fields (w : Word) : wordXYN (fieldF w) (fieldX w).toNat (fieldY w).toNat (fieldN w) = w := by
  have hlow : fieldY w ++ fieldN w = fieldNN w := BitVec.extractLsb'_append_extractLsb'_eq_extractLsb' rfl
  rw [wordXYN, BitVec.ofNat_toNat (m := 4) (x := fieldY w), BitVec.setWidth_eq, hlow]
  exact wordXNN_fields w

/-- Families 5 and 9 give their one instruction exactly when the low nibble is 0. -/
theorem decodeLowZero_eq_ok_iff {n : BitVec 4} {i j : Instr} : decodeLowZero n i = .ok j ↔ n = 0#4 ∧ i = j := by
  unfold decodeLowZero
  split <;> simp_all

/-- Family 0 gives an instruction only from its own word. -/
theorem encode_of_decodeFamily0 {w : Word} {i : Instr} (h : decodeFamily0 w = .ok i) : i.wf = true ∧ encode i = w := by
  unfold decodeFamily0 at h
  split at h
  next hw => cases h; exact ⟨rfl, hw.symm⟩
  next =>
    split at h
    next hw => cases h; exact ⟨rfl, hw.symm⟩
    next => cases h

/-- Family 8 keeps both registers and the low nibble. -/
theorem encode_of_decodeFamily8 {x y : Nat} {n : BitVec 4} {i : Instr} (h : decodeFamily8 x y n = .ok i) (hx : x < 16)
    (hy : y < 16) : i.wf = true ∧ encode i = wordXYN 0x8#4 x y n := by
  have hwf : (regOk x && regOk y) = true := by simp [hx, hy]
  unfold decodeFamily8 at h
  split at h <;> cases h
  all_goals
    next hn => exact ⟨hwf, congrArg (wordXYN 0x8#4 x y) (BitVec.eq_of_toNat_eq hn.symm)⟩

/-- Family F keeps its register and the low byte. -/
theorem encode_of_decodeFamilyF {x : Nat} {nn : Byte} {i : Instr} (h : decodeFamilyF x nn = .ok i) (hx : x < 16) :
    i.wf = true ∧ encode i = wordXNN 0xF#4 x nn := by
  have hwf : regOk x = true := by simp [hx]
  unfold decodeFamilyF at h
  split at h <;> cases h
  all_goals
    next hn => exact ⟨hwf, congrArg (wordXNN 0xF#4 x) (BitVec.eq_of_toNat_eq hn.symm)⟩

/-- A decoded instruction is well-formed and encodes to the word it came from, family by family: the family nibble is the
row's, and every other field is an operand or fixed by the sub-dispatch. -/
theorem encode_of_decode {w : Word} {i : Instr} (h : decode w = .ok i) : i.wf = true ∧ encode i = w := by
  have hx : regOk (fieldX w).toNat = true := (regOk_iff _).mpr (fieldX w).isLt
  have hy : regOk (fieldY w).toNat = true := (regOk_iff _).mpr (fieldY w).isLt
  have hxy : (regOk (fieldX w).toNat && regOk (fieldY w).toNat) = true := by simp [hx, hy]
  have hfamily (f : BitVec 4) (hf : (fieldF w).toNat = f.toNat) : f = fieldF w := BitVec.eq_of_toNat_eq hf.symm
  have hnnn (f : BitVec 4) (hf : (fieldF w).toNat = f.toNat) : wordNNN f (fieldNNN w) = w := by
    rw [hfamily f hf, wordNNN_fields]
  have hxnn (f : BitVec 4) (hf : (fieldF w).toNat = f.toNat) : wordXNN f (fieldX w).toNat (fieldNN w) = w := by
    rw [hfamily f hf, wordXNN_fields]
  have hxyn (f : BitVec 4) (hf : (fieldF w).toNat = f.toNat) :
      wordXYN f (fieldX w).toNat (fieldY w).toNat (fieldN w) = w := by
    rw [hfamily f hf, wordXYN_fields]
  unfold decode at h
  split at h
  case h_1 => exact encode_of_decodeFamily0 h
  case h_2 hf => cases h; exact ⟨rfl, hnnn 0x1#4 hf⟩
  case h_3 hf => cases h; exact ⟨rfl, hnnn 0x2#4 hf⟩
  case h_4 hf => cases h; exact ⟨hx, hxnn 0x3#4 hf⟩
  case h_5 hf => cases h; exact ⟨hx, hxnn 0x4#4 hf⟩
  case h_6 hf =>
    obtain ⟨hn, rfl⟩ := decodeLowZero_eq_ok_iff.mp h
    exact ⟨hxy, by rw [encode, ← hn, hxyn 0x5#4 hf]⟩
  case h_7 hf => cases h; exact ⟨hx, hxnn 0x6#4 hf⟩
  case h_8 hf => cases h; exact ⟨hx, hxnn 0x7#4 hf⟩
  case h_9 hf =>
    rw [← hxyn 0x8#4 hf]
    exact encode_of_decodeFamily8 h (fieldX w).isLt (fieldY w).isLt
  case h_10 hf =>
    obtain ⟨hn, rfl⟩ := decodeLowZero_eq_ok_iff.mp h
    exact ⟨hxy, by rw [encode, ← hn, hxyn 0x9#4 hf]⟩
  case h_11 hf => cases h; exact ⟨rfl, hnnn 0xA#4 hf⟩
  case h_12 hf => cases h; exact ⟨hx, hxnn 0xC#4 hf⟩
  case h_13 hf =>
    cases h
    have hn : countOk (fieldN w).toNat = true := (countOk_iff _).mpr (fieldN w).isLt
    refine ⟨by simp only [Instr.wf, hxy, hn, Bool.and_self], ?_⟩
    rw [encode, BitVec.ofNat_toNat, BitVec.setWidth_eq, hxyn 0xD#4 hf]
  case h_14 hf =>
    rw [← hxnn 0xF#4 hf]
    exact encode_of_decodeFamilyF h (fieldX w).isLt
  case h_15 => cases h

end Sys2Proof

namespace Sys2Proof.Proofs

open Sys2Proof.Machine

/-- Settles O1: each of the three word shapes gives its fields back, and the family nibble with the sub-opcode picks the
constructor. -/
theorem decodeOfEncodeIsInstruction : Obligations.DecodeOfEncodeIsInstruction :=
  fun _ h => decode_encode h

/-- Settles O2: a word is its fields, and decoding keeps every field as an operand or fixes it. -/
theorem encodeOfDecodeIsWord : Obligations.EncodeOfDecodeIsWord :=
  fun _ _ h => encode_of_decode h

end Sys2Proof.Proofs
end

section
/-! Proofs about the opcode table (30_encoding.md R81, R85): its rows are disjoint, and a word selects none of them exactly
when it is illegal. -/

namespace Sys2Proof

open Sys2Proof.Claims

/-! ## Fields as numbers -/

theorem toNat_fieldF (w : Word) : (fieldF w).toNat = w.toNat / 0x1000 := by
  have := w.isLt
  rw [fieldF, BitVec.extractLsb'_toNat, Nat.shiftRight_eq_div_pow]
  omega

theorem toNat_fieldN (w : Word) : (fieldN w).toNat = w.toNat % 0x10 :=
  BitVec.extractLsb'_toNat 0 4 w

theorem toNat_fieldNN (w : Word) : (fieldNN w).toNat = w.toNat % 0x100 :=
  BitVec.extractLsb'_toNat 0 8 w

/-- The illegal words of 30_encoding.md R85 by their fields. -/
theorem illegalWord_iff_fields (w : Word) : IllegalWord w ↔
    ((fieldF w).toNat = 0x0 ∧ w ≠ 0x00E0#16 ∧ w ≠ 0x00EE#16) ∨
    (((fieldF w).toNat = 0x5 ∨ (fieldF w).toNat = 0x9) ∧ (fieldN w).toNat ≠ 0) ∨
    ((fieldF w).toNat = 0x8 ∧ (fieldN w).toNat ∈ [0x8, 0x9, 0xA, 0xB, 0xC, 0xD, 0xF]) ∨
    ((fieldF w).toNat = 0xB ∨ (fieldF w).toNat = 0xE) ∨
    ((fieldF w).toNat = 0xF ∧ (fieldNN w).toNat ∉ [0x07, 0x15, 0x1E, 0x29, 0x33, 0x55, 0x65]) := by
  rw [toNat_fieldF, toNat_fieldN, toNat_fieldNN]
  rfl

/-! ## The sub-dispatches -/

theorem decodeFamily0_fails_iff (w : Word) :
    (∀ i, decodeFamily0 w ≠ .ok i) ↔ w ≠ 0x00E0#16 ∧ w ≠ 0x00EE#16 := by
  unfold decodeFamily0
  split
  next h => simp [h]
  next h =>
    split
    next h' => simp [h']
    next h' => simp [h, h']

theorem decodeLowZero_fails_iff (n : BitVec 4) (i : Instr) : (∀ j, decodeLowZero n i ≠ .ok j) ↔ n.toNat ≠ 0 := by
  simp [decodeLowZero_eq_ok_iff, BitVec.toNat_eq]

theorem decodeFamily8_fails_iff (x y : Nat) (n : BitVec 4) :
    (∀ i, decodeFamily8 x y n ≠ .ok i) ↔ n.toNat ∈ [0x8, 0x9, 0xA, 0xB, 0xC, 0xD, 0xF] := by
  have := n.isLt
  unfold decodeFamily8
  split
  case h_10 =>
    simp_all only [imp_false, List.mem_cons, List.not_mem_nil]
    simp
    omega
  all_goals simp [*]

theorem decodeFamilyF_fails_iff (x : Nat) (nn : Byte) :
    (∀ i, decodeFamilyF x nn ≠ .ok i) ↔ nn.toNat ∉ [0x07, 0x15, 0x1E, 0x29, 0x33, 0x55, 0x65] := by
  unfold decodeFamilyF
  split
  case h_8 => simp_all
  all_goals simp [*]

/-- The illegal words are exactly those that decode to nothing, family by family (30_encoding.md R84, R85). -/
theorem decode_fails_iff (w : Word) : (∀ i, decode w ≠ .ok i) ↔ IllegalWord w := by
  have := (fieldF w).isLt
  rw [illegalWord_iff_fields]
  unfold decode
  split
  case h_1 hf => simp [hf, decodeFamily0_fails_iff]
  case h_6 hf | h_10 hf => simp [hf, decodeLowZero_fails_iff]
  case h_9 hf => simp [hf, decodeFamily8_fails_iff]
  case h_14 hf => simp [hf, decodeFamilyF_fails_iff]
  case h_15 =>
    simp_all only [imp_false]
    simp
    omega
  all_goals
    next hf => simp [hf]

theorem exists_decode_iff (w : Word) : (∃ i, decode w = .ok i) ↔ ¬IllegalWord w := by
  simp [← decode_fails_iff]

/-! ## The rows -/

/-- Under the masks of two rows that it selects, a word shows the bits of both. -/
theorem Row.selects_both {r r' : Row} {w : Word} (h : r.selects w = true) (h' : r'.selects w = true) :
    r.bits &&& r'.mask = r'.bits &&& r.mask := by
  rw [Row.selects, beq_iff_eq] at h h'
  rw [← h, ← h', BitVec.and_assoc, BitVec.and_assoc, BitVec.and_comm r.mask]

/-- No two rows agree on the bits that both of their masks bind. -/
theorem opcodeTable_disjoint : opcodeTable.Pairwise fun r r' => ¬(r.bits &&& r'.mask = r'.bits &&& r.mask) := by
  decide

theorem row_unique {w : Word} {r r' : Row} (hr : r ∈ opcodeTable) (hr' : r' ∈ opcodeTable) (h : r.selects w = true)
    (h' : r'.selects w = true) : r = r' := by
  have : Std.Symm fun r r' : Row => ¬(r.bits &&& r'.mask = r'.bits &&& r.mask) := ⟨fun _ _ hne he => hne he.symm⟩
  by_contra hne
  exact opcodeTable_disjoint.forall hr hr' hne (Row.selects_both h h')

/-- A field whose every bit a row binds has the row's value in each word that selects the row. -/
theorem Row.field_of_selects {r : Row} {w : Word} (h : r.selects w = true) (start len : Nat)
    (hmask : r.mask.extractLsb' start len = BitVec.allOnes len) :
    w.extractLsb' start len = r.bits.extractLsb' start len := by
  rw [Row.selects, beq_iff_eq] at h
  rw [← h, BitVec.extractLsb'_and, hmask, BitVec.and_allOnes]

/-- Each row binds the family nibble and whatever the sub-dispatch of its family reads (30_encoding.md R84). -/
theorem opcodeTable_binds : ∀ r ∈ opcodeTable,
    fieldF r.mask = BitVec.allOnes 4 ∧ ((fieldF r.bits).toNat = 0x0 → r.mask = BitVec.allOnes 16) ∧
    (((fieldF r.bits).toNat = 0x5 ∨ (fieldF r.bits).toNat = 0x9) ∨ (fieldF r.bits).toNat = 0x8 →
      fieldN r.mask = BitVec.allOnes 4) ∧
    ((fieldF r.bits).toNat = 0xF → fieldNN r.mask = BitVec.allOnes 8) := by
  decide

theorem opcodeTable_legal : ∀ r ∈ opcodeTable, ¬IllegalWord r.bits := by
  unfold IllegalWord
  decide

/-- A word that selects a row is legal: the dispatch reads it as it reads the row's own bits. -/
theorem not_illegalWord_of_selects {r : Row} {w : Word} (hr : r ∈ opcodeTable) (h : r.selects w = true) :
    ¬IllegalWord w := by
  obtain ⟨hF, h0, hN, hNN⟩ := opcodeTable_binds r hr
  have hlegal := opcodeTable_legal r hr
  have hf : fieldF w = fieldF r.bits := Row.field_of_selects h 12 4 hF
  intro hw
  apply hlegal
  rw [illegalWord_iff_fields] at hw ⊢
  rw [hf] at hw
  obtain ⟨he, hne⟩ | ⟨he, hn⟩ | ⟨he, hn⟩ | he | ⟨he, hnn⟩ := hw
  · have hwhole : w = r.bits := by
      simpa [BitVec.extractLsb'_eq_self] using Row.field_of_selects h 0 16 (by simp [h0 he])
    exact .inl ⟨he, hwhole ▸ hne⟩
  · have hlow : fieldN w = fieldN r.bits := Row.field_of_selects h 0 4 (hN (.inl he))
    exact .inr (.inl ⟨he, hlow ▸ hn⟩)
  · have hlow : fieldN w = fieldN r.bits := Row.field_of_selects h 0 4 (hN (.inr he))
    exact .inr (.inr (.inl ⟨he, hlow ▸ hn⟩))
  · exact .inr (.inr (.inr (.inl he)))
  · have hlow : fieldNN w = fieldNN r.bits := Row.field_of_selects h 0 8 (hNN he)
    exact .inr (.inr (.inr (.inr ⟨he, hlow ▸ hnn⟩)))

/-- A decoded instruction's own row is in the table, and the word selects it. -/
theorem row_of_decode {w : Word} {i : Instr} (h : decode w = .ok i) :
    i.row ∈ opcodeTable ∧ i.row.selects w = true := by
  obtain ⟨-, rfl⟩ := encode_of_decode h
  exact fixedBits i

end Sys2Proof

namespace Sys2Proof.Proofs

open Sys2Proof.Machine

/-- Settles O3: two rows that one word selects would agree on every bit both masks bind, which no two rows do; a legal word
decodes, to an instruction whose row it selects. -/
theorem wordDecodesThroughItsOneRow : Obligations.WordDecodesThroughItsOneRow := by
  refine ⟨rfl, fun w r r' => row_unique, fun w => ⟨?_, ?_⟩, fun w i => row_of_decode⟩
  · rintro ⟨i, h⟩
    exact ⟨i.row, row_of_decode h⟩
  · rintro ⟨r, hr, h⟩
    exact (exists_decode_iff w).mpr (not_illegalWord_of_selects hr h)

/-- Settles O5: the sixteen words run through the decoder. -/
theorem wordsOfEachFamilyDecode : Obligations.WordsOfEachFamilyDecode := by
  unfold Obligations.WordsOfEachFamilyDecode
  decide

end Sys2Proof.Proofs
end

section
/-! What an instruction does, said once: exec checks its registers, then what its body can raise, and else leaves the
state `effect` gives. Every later proof about instructions takes its cases from `exec_cases`. -/

namespace Sys2Proof.Machine

open Sys2Proof.Claims

/-! ## The composite updates as field updates -/

theorem State.flagIndexOverflow_eq (s : State) (x : Nat) : s.flagIndexOverflow x =
    s.setV VF (if s.config.indexOverflowFlag then indexOverflowOf s.idx (s.getV x) else s.getV VF) := by
  unfold State.flagIndexOverflow
  split
  · rfl
  · exact (s.setV_getV VF).symm

theorem State.timerDecay_eq (s : State) :
    s.timerDecay = s.setDt (if 0 < s.dt.toNat then s.dt - 1#8 else s.dt) := by
  unfold State.timerDecay
  split <;> rfl

/-- The index register after FX55 or FX65 of `n` bytes (43_index_memory.md R174, R175). -/
def State.steppedIndex (s : State) (n : Nat) : Word :=
  if s.config.storeLoadIncrementsIndex then wrapIndex s.idx n else s.idx

theorem State.steppedIndex_off {s : State} (n : Nat) (h : s.config.storeLoadIncrementsIndex = false) :
    s.steppedIndex n = s.idx := by
  simp [State.steppedIndex, h]

theorem State.steppedIndex_on {s : State} (n : Nat) (h : s.config.storeLoadIncrementsIndex = true) :
    s.steppedIndex n = wrapIndex s.idx n := by
  simp [State.steppedIndex, h]

/-! ## What an instruction's body can raise, and what it does else -/

/-- What an instruction with registers 0..15 raises in a state, with the access of the record. -/
def bodyFault (s : State) : Instr → Option (FaultKind × Option (Nat × Nat))
  | .op00EE => if s.stack = [] then some (.stackUnderflow, none) else none
  | .op2NNN _ => if s.stackFull then some (.stackOverflow, none) else none
  | .opDXYN _ _ n => if inBounds s.idx.toNat n then none else some (.outOfBounds, some (s.idx.toNat, n))
  | .opFX33 _ => if mayWrite s.config s.idx.toNat 3 then none else some (.outOfBounds, some (s.idx.toNat, 3))
  | .opFX55 x =>
    if mayWrite s.config s.idx.toNat (x + 1) then none else some (.outOfBounds, some (s.idx.toNat, x + 1))
  | .opFX65 x => if inBounds s.idx.toNat (x + 1) then none else some (.outOfBounds, some (s.idx.toNat, x + 1))
  | _ => none

section

variable {s : State}

theorem bodyFault_op00EE_eq_none_iff : bodyFault s .op00EE = none ↔ s.stack ≠ [] := by simp [bodyFault]

theorem bodyFault_op2NNN_eq_none_iff {a : Addr12} : bodyFault s (.op2NNN a) = none ↔ s.stackFull = false := by
  simp [bodyFault]

theorem bodyFault_opDXYN_eq_none_iff {x y n : Nat} :
    bodyFault s (.opDXYN x y n) = none ↔ inBounds s.idx.toNat n = true := by
  simp [bodyFault]

theorem bodyFault_opFX33_eq_none_iff {x : Nat} :
    bodyFault s (.opFX33 x) = none ↔ mayWrite s.config s.idx.toNat 3 = true := by
  simp [bodyFault]

theorem bodyFault_opFX55_eq_none_iff {x : Nat} :
    bodyFault s (.opFX55 x) = none ↔ mayWrite s.config s.idx.toNat (x + 1) = true := by
  simp [bodyFault]

theorem bodyFault_opFX65_eq_none_iff {x : Nat} :
    bodyFault s (.opFX65 x) = none ↔ inBounds s.idx.toNat (x + 1) = true := by
  simp [bodyFault]

end

/-- The state an instruction leaves when it raises nothing, each field in its final form. -/
def effect (s : State) : Instr → State
  | .op00E0 => (s.setFb Framebuffer.clear).emitRender
  | .op00EE => (s.setStack s.stack.tail).setPc (s.stack.headD 0#16)
  | .op1NNN nnn =>
    { s with pc := zext16 nnn, halted := s.halted || (s.config.haltOnSelfJump && zext16 nnn == s.fetchedAt) }
  | .op2NNN nnn => (s.push s.pc).setPc (zext16 nnn)
  | .op3XNN x nn => s.setPc (if s.getV x = nn then s.pc + 2#16 else s.pc)
  | .op4XNN x nn => s.setPc (if s.getV x = nn then s.pc else s.pc + 2#16)
  | .op5XY0 x y => s.setPc (if s.getV x = s.getV y then s.pc + 2#16 else s.pc)
  | .op6XNN x nn => s.setV x nn
  | .op7XNN x nn => s.setV x (s.getV x + nn)
  | .op8XY0 x y => s.setV x (s.getV y)
  | .op8XY1 x y => s.setV x (s.getV x ||| s.getV y)
  | .op8XY2 x y => s.setV x (s.getV x &&& s.getV y)
  | .op8XY3 x y => s.setV x (s.getV x ^^^ s.getV y)
  | .op8XY4 x y => s.flagThenResult x y carryOf (fun a b => a + b)
  | .op8XY5 x y => s.flagThenResult x y noBorrowOf (fun a b => a - b)
  | .op8XY6 x y =>
    (s.setV x (s.shiftSource x y)).flagThenResult x x (fun a _ => shiftedOutRight a) (fun a _ => a >>> 1)
  | .op8XY7 x y => s.flagThenResult x y (fun a b => noBorrowOf b a) (fun a b => b - a)
  | .op8XYE x y =>
    (s.setV x (s.shiftSource x y)).flagThenResult x x (fun a _ => shiftedOutLeft a) (fun a _ => a <<< 1)
  | .op9XY0 x y => s.setPc (if s.getV x = s.getV y then s.pc else s.pc + 2#16)
  | .opANNN nnn => s.setIdx (zext16 nnn)
  | .opCXNN x nn => (s.setRng s.rng.advance).setV x (s.rng.next &&& nn)
  | .opDXYN x y n => s.drawRows x y (s.mem.range s.idx.toNat n)
  | .opFX07 x => s.setV x s.dt
  | .opFX15 x => s.setDt (s.getV x)
  | .opFX1E x =>
    let t := s.setV VF (if s.config.indexOverflowFlag then indexOverflowOf s.idx (s.getV x) else s.getV VF)
    t.setIdx (wrapIndex t.idx (t.getV x).toNat)
  | .opFX29 x => s.setIdx (glyphAddress (s.getV x))
  | .opFX33 x => s.setMem (s.mem.putAll s.idx.toNat (decimalDigits (s.getV x)))
  | .opFX55 x => (s.setMem (s.mem.putAll s.idx.toNat (s.block 0 (x + 1)))).setIdx (s.steppedIndex (x + 1))
  | .opFX65 x =>
    { s with v := (s.loadBlock 0 (s.mem.range s.idx.toNat (x + 1))).v, idx := s.steppedIndex (x + 1) }

/-- An instruction whose registers are in range: the fault of its body, or its effect. -/
def outcome (s : State) (i : Instr) : Result :=
  match bodyFault s i with
  | some (k, access) => raise k i access s
  | none => .next (effect s i)

theorem outcome_of_fault {s : State} {i : Instr} {k : FaultKind} {access : Option (Nat × Nat)}
    (h : bodyFault s i = some (k, access)) : outcome s i = raise k i access s := by
  simp [outcome, h]

theorem outcome_of_none {s : State} {i : Instr} (h : bodyFault s i = none) : outcome s i = .next (effect s i) := by
  simp [outcome, h]

/-! ## exec is the guard around the outcome -/

section

variable (s : State)

theorem exec00EE_eq_outcome : exec00EE s = outcome s .op00EE := by
  unfold exec00EE outcome bodyFault effect
  cases s.stack <;> rfl

theorem exec1NNN_eq_outcome (nnn : Addr12) : exec1NNN nnn s = outcome s (.op1NNN nnn) := by
  rw [outcome_of_none rfl, exec1NNN, effect]
  cases s.config.haltOnSelfJump && zext16 nnn == s.fetchedAt
  · rw [Bool.or_false]
    rfl
  · rw [Bool.or_true]
    rfl

theorem exec2NNN_eq_outcome (nnn : Addr12) : exec2NNN nnn s = outcome s (.op2NNN nnn) := by
  unfold exec2NNN outcome bodyFault
  cases s.stackFull <;> rfl

theorem loadBytes_eq_outcome {i : Instr} {n : Nat} {rest : List Byte → State}
    (hfault : bodyFault s i = if inBounds s.idx.toNat n then none else some (.outOfBounds, some (s.idx.toNat, n)))
    (heffect : rest (s.mem.range s.idx.toNat n) = effect s i) :
    loadBytes i s.idx.toNat n s rest = outcome s i := by
  cases hb : inBounds s.idx.toNat n
  · rw [loadBytes_bad rest hb, outcome_of_fault (by rw [hfault, hb]; rfl)]
  · rw [loadBytes_ok rest hb, outcome_of_none (by rw [hfault, hb]; rfl), heffect]

theorem storeBytes_eq_outcome {i : Instr} {bs : List Byte} {rest : State → State}
    (hfault : bodyFault s i = if mayWrite s.config s.idx.toNat bs.length then none
      else some (.outOfBounds, some (s.idx.toNat, bs.length)))
    (heffect : rest (s.setMem (s.mem.putAll s.idx.toNat bs)) = effect s i) :
    storeBytes i s.idx.toNat bs s rest = outcome s i := by
  cases hw : mayWrite s.config s.idx.toNat bs.length
  · rw [storeBytes_bad rest hw, outcome_of_fault (by rw [hfault, hw]; rfl)]
  · rw [storeBytes_ok rest hw, outcome_of_none (by rw [hfault, hw]; rfl), heffect]

theorem guardRegs_next_congr (rs : List Nat) (i : Instr) {t u : State} (h : t = u) :
    guardRegs rs i s (.next t) = guardRegs rs i s (.next u) :=
  congrArg (fun t => guardRegs rs i s (.next t)) h

/-- Every instruction is the guard of the registers it uses around its outcome. -/
theorem exec_eq_guardRegs (i : Instr) : exec i s = guardRegs (regsUsed s.config i) i s (outcome s i) := by
  cases i with
  | op00E0 | opANNN => rfl
  | op00EE => exact exec00EE_eq_outcome s
  | op1NNN nnn => exact exec1NNN_eq_outcome s nnn
  | op2NNN nnn => exact exec2NNN_eq_outcome s nnn
  | op6XNN | op7XNN | op8XY0 | op8XY1 | op8XY2 | op8XY3 | op8XY4 | op8XY5 | op8XY7 | opCXNN | opFX07 | opFX15
    | opFX29 => rfl
  | op3XNN x nn => exact guardRegs_next_congr s _ _ (s.skipIf_beq _ _)
  | op4XNN x nn => exact guardRegs_next_congr s _ _ (s.skipIf_bne _ _)
  | op5XY0 x y => exact guardRegs_next_congr s _ _ (s.skipIf_beq _ _)
  | op9XY0 x y => exact guardRegs_next_congr s _ _ (s.skipIf_bne _ _)
  | op8XY6 x y | op8XYE x y =>
    exact guardRegs_next_congr s _ _ (s.shiftInPlace_eq x y _ _)
  | opFX1E x =>
    exact guardRegs_next_congr s _ _
      (congrArg (fun t : State => t.setIdx (wrapIndex t.idx (t.getV x).toNat)) (s.flagIndexOverflow_eq x))
  | opDXYN x y n => exact congrArg (guardRegs _ _ s) (loadBytes_eq_outcome s rfl rfl)
  | opFX33 x => exact congrArg (guardRegs _ _ s) (storeBytes_eq_outcome s rfl rfl)
  | opFX55 x =>
    refine congrArg (guardRegs _ _ s) (storeBytes_eq_outcome s ?_ (State.stepIndex_eq _ _))
    rw [State.length_block]
    rfl
  | opFX65 x =>
    refine congrArg (guardRegs _ _ s) (loadBytes_eq_outcome s rfl ?_)
    rw [State.stepIndex_eq, State.loadBlock_eq]
    rfl

variable {s} {i : Instr}

/-- A register index out of range raises InvalidRegister. -/
theorem exec_of_badRegister (h : ∃ r ∈ regsUsed s.config i, 16 ≤ r) : exec i s = raise .invalidRegister i none s := by
  rw [exec_eq_guardRegs, guardRegs_bad _ _ _ h]

theorem exec_of_fault {k : FaultKind} {access : Option (Nat × Nat)} (hregs : ∀ r ∈ regsUsed s.config i, r < 16)
    (h : bodyFault s i = some (k, access)) : exec i s = raise k i access s := by
  rw [exec_eq_guardRegs, guardRegs_ok _ _ _ hregs, outcome_of_fault h]

theorem exec_of_noFault (hregs : ∀ r ∈ regsUsed s.config i, r < 16) (h : bodyFault s i = none) :
    exec i s = .next (effect s i) := by
  rw [exec_eq_guardRegs, guardRegs_ok _ _ _ hregs, outcome_of_none h]

variable (s i)

/-- Everything an instruction can do. -/
theorem exec_cases :
    ((∃ r ∈ regsUsed s.config i, 16 ≤ r) ∧ exec i s = raise .invalidRegister i none s) ∨
    ((∀ r ∈ regsUsed s.config i, r < 16) ∧
      ∃ k access, bodyFault s i = some (k, access) ∧ exec i s = raise k i access s) ∨
    ((∀ r ∈ regsUsed s.config i, r < 16) ∧ bodyFault s i = none ∧ exec i s = .next (effect s i)) := by
  by_cases hregs : ∀ r ∈ regsUsed s.config i, r < 16
  · cases h : bodyFault s i with
    | some p =>
      obtain ⟨k, access⟩ := p
      exact .inr (.inl ⟨hregs, k, access, rfl, exec_of_fault hregs h⟩)
    | none => exact .inr (.inr ⟨hregs, rfl, exec_of_noFault hregs h⟩)
  · have hbad : ∃ r ∈ regsUsed s.config i, 16 ≤ r := by simpa using hregs
    exact .inl ⟨hbad, exec_of_badRegister hbad⟩

variable {s i}

/-- The next state of an instruction: a fault record and nothing else, or its effect. -/
theorem exec_next_cases {t : State} (h : exec i s = .next t) :
    (∃ k access, t = s.setFault (record k i access s)) ∨
    ((∀ r ∈ regsUsed s.config i, r < 16) ∧ bodyFault s i = none ∧ t = effect s i) := by
  obtain ⟨-, he⟩ | ⟨-, k, access, -, he⟩ | ⟨hregs, hnone, he⟩ := exec_cases s i <;> rw [h] at he
  · exact .inl ⟨_, _, Host.Outcome.next.inj he⟩
  · exact .inl ⟨_, _, Host.Outcome.next.inj he⟩
  · exact .inr ⟨hregs, hnone, Host.Outcome.next.inj he⟩

/-- An instruction answers a next state always. -/
theorem exec_answers_next (i : Instr) (s : State) : ∃ t, exec i s = .next t := by
  obtain ⟨-, h⟩ | ⟨-, k, access, -, h⟩ | ⟨-, -, h⟩ := exec_cases s i
  · exact ⟨_, h⟩
  · exact ⟨_, h⟩
  · exact ⟨_, h⟩

end

/-- A well-formed instruction uses registers 0..15 only. -/
theorem regsUsed_lt_of_wf {i : Instr} (c : Config) (h : i.wf = true) : ∀ r ∈ regsUsed c i, r < 16 := by
  cases i <;> simp only [Instr.wf, Bool.and_eq_true, regOk_iff, countOk_iff] at h
  case op8XY6 x y | op8XYE x y => exact fun r => lt_of_mem_shiftRegs h.1 h.2
  all_goals simp [regsUsed, h]

end Sys2Proof.Machine
end

section
/-! Proofs about what instructions may write and raise (10_state.md R21, R22, R24, R29 to R36, 60_exceptions.md R203): for
each part of the state, either `effect` leaves it or the instruction is one of its writers. -/

namespace Sys2Proof.Machine

open Sys2Proof.Claims

section

variable (s : State) (i : Instr)

/-! ## The parts of the state with named writers -/

theorem effect_mem : (effect s i).mem = s.mem ∨ ∃ x, i = .opFX33 x ∨ i = .opFX55 x := by
  cases i with
  | opFX33 x => exact .inr ⟨x, .inl rfl⟩
  | opFX55 x => exact .inr ⟨x, .inr rfl⟩
  | _ => exact .inl rfl

theorem effect_idx : (effect s i).idx = s.idx ∨ (∃ a, i = .opANNN a) ∨ ∃ x, i = .opFX1E x ∨ i = .opFX29 x ∨
    (s.config.storeLoadIncrementsIndex = true ∧ (i = .opFX55 x ∨ i = .opFX65 x)) := by
  cases i with
  | opANNN a => exact .inr (.inl ⟨a, rfl⟩)
  | opFX1E x => exact .inr (.inr ⟨x, .inl rfl⟩)
  | opFX29 x => exact .inr (.inr ⟨x, .inr (.inl rfl)⟩)
  | opFX55 x =>
    cases hq : s.config.storeLoadIncrementsIndex with
    | false => exact .inl (State.steppedIndex_off (x + 1) hq)
    | true => exact .inr (.inr ⟨x, .inr (.inr ⟨rfl, .inl rfl⟩)⟩)
  | opFX65 x =>
    cases hq : s.config.storeLoadIncrementsIndex with
    | false => exact .inl (State.steppedIndex_off (x + 1) hq)
    | true => exact .inr (.inr ⟨x, .inr (.inr ⟨rfl, .inr rfl⟩)⟩)
  | _ => exact .inl rfl

theorem effect_stack : (effect s i).stack = s.stack ∨ i = .op00EE ∨ ∃ a, i = .op2NNN a := by
  cases i with
  | op00EE => exact .inr (.inl rfl)
  | op2NNN a => exact .inr (.inr ⟨a, rfl⟩)
  | _ => exact .inl rfl

theorem effect_dt : (effect s i).dt = s.dt ∨ ∃ x, i = .opFX15 x := by
  cases i with
  | opFX15 x => exact .inr ⟨x, rfl⟩
  | _ => exact .inl rfl

theorem effect_fb : (effect s i).fb = s.fb ∨ i = .op00E0 ∨ ∃ x y n, i = .opDXYN x y n := by
  cases i with
  | op00E0 => exact .inr (.inl rfl)
  | opDXYN x y n => exact .inr (.inr ⟨x, y, n, rfl⟩)
  | _ => exact .inl rfl

theorem effect_renders : (effect s i).renders = s.renders ∨ i = .op00E0 ∨ ∃ x y n, i = .opDXYN x y n := by
  cases i with
  | op00E0 => exact .inr (.inl rfl)
  | opDXYN x y n => exact .inr (.inr ⟨x, y, n, rfl⟩)
  | _ => exact .inl rfl

theorem effect_rng : (effect s i).rng = s.rng ∨ ∃ x nn, i = .opCXNN x nn := by
  cases i with
  | opCXNN x nn => exact .inr ⟨x, nn, rfl⟩
  | _ => exact .inl rfl

theorem effect_halted : (effect s i).halted = s.halted ∨ ∃ a, i = .op1NNN a := by
  cases i with
  | op1NNN a => exact .inr ⟨a, rfl⟩
  | _ => exact .inl rfl

/-! ## The parts no instruction's effect writes -/

@[simp] theorem effect_config : (effect s i).config = s.config := by cases i <;> rfl

@[simp] theorem effect_sched : (effect s i).sched = s.sched := by cases i <;> rfl

@[simp] theorem effect_stopped : (effect s i).stopped = s.stopped := by cases i <;> rfl

@[simp] theorem effect_finalRenderDone : (effect s i).finalRenderDone = s.finalRenderDone := by cases i <;> rfl

@[simp] theorem effect_fault : (effect s i).fault = s.fault := by cases i <;> rfl

end

/-! ## VF (10_state.md R21) -/

section

variable (s : State) {i : Instr}

theorem State.getV_VF_setV (x : Nat) (b : Byte) : (s.setV x b).getV VF = s.getV VF ∨ (x == 15) = true := by
  by_cases hx : x = 15
  · exact .inr (beq_iff_eq.mpr hx)
  · exact .inl (s.getV_setV_ne x VF b hx)

/-- VF is kept unless the instruction writes it as a flag or names it as its destination. -/
theorem effect_getV_VF (hregs : ∀ r ∈ regsUsed s.config i, r < 16) :
    (effect s i).getV VF = s.getV VF ∨ writesFlag s.config i = true ∨ vfIsDestination i = true := by
  cases i with
  | op6XNN x | op7XNN x | op8XY0 x | op8XY1 x | op8XY2 x | op8XY3 x | opCXNN x | opFX07 x =>
    exact (State.getV_VF_setV _ x _).imp_right .inr
  | op8XY4 | op8XY5 | op8XY6 | op8XY7 | op8XYE | opDXYN => exact .inr (.inl rfl)
  | opFX1E x =>
    cases hq : s.config.indexOverflowFlag with
    | true => exact .inr (.inl hq)
    | false =>
      left
      simp only [effect, hq, Bool.false_eq_true, if_false, State.setV_getV, State.getV_setIdx]
  | opFX65 x =>
    by_cases hx : x = 15
    · exact .inr (.inr (beq_iff_eq.mpr hx))
    · have hx16 : x < 16 := hregs x (by simp [regsUsed])
      have habove : 0 + (s.mem.range s.idx.toNat (x + 1)).length ≤ VF := by
        rw [Memory.length_range, VF]
        omega
      exact .inl (s.getV_loadBlock_ne 0 VF _ (.inr habove))
  | _ => exact .inl rfl

end

/-! ## Faults (60_exceptions.md R203) -/

/-- The body of an instruction raises only the kinds of its row. -/
theorem kind_mem_of_bodyFault {s : State} {i : Instr} {k : FaultKind} {access : Option (Nat × Nat)}
    (h : bodyFault s i = some (k, access)) : k ∈ faultsOf i := by
  cases i with
  | op00EE | op2NNN | opDXYN | opFX33 | opFX55 | opFX65 =>
    simp only [bodyFault] at h
    split at h <;> cases h
    exact List.mem_singleton_self _
  | _ => cases h

/-- A decoded instruction raises only the kinds of its row: its registers pass the guard. -/
theorem kind_mem_of_exec {w : Word} {i : Instr} {s t : State} {r : FaultRecord} (hd : decode w = .ok i)
    (hs : s.fault = none) (h : exec i s = .next t) (hr : t.fault = some r) : r.kind ∈ faultsOf i := by
  obtain ⟨hwf, -⟩ := encode_of_decode hd
  obtain ⟨⟨q, hq, hbad⟩, -⟩ | ⟨-, k, access, hk, he⟩ | ⟨-, -, he⟩ := exec_cases s i
  · have hlt := regsUsed_lt_of_wf s.config hwf q hq
    omega
  · obtain rfl : _ = t := Host.Outcome.next.inj (he.symm.trans h)
    obtain rfl : _ = r := Option.some.inj hr
    exact kind_mem_of_bodyFault hk
  · obtain rfl : effect s i = t := Host.Outcome.next.inj (he.symm.trans h)
    rw [effect_fault, hs] at hr
    cases hr

theorem invalidRegister_notMem_faultsOf (i : Instr) : FaultKind.invalidRegister ∉ faultsOf i := by
  cases i <;> simp [faultsOf]

end Sys2Proof.Machine

namespace Sys2Proof.Proofs

open Sys2Proof.Machine

/-- Settles O46: a fault record changes none of the parts, and the effect of an instruction only those it is a writer of. -/
theorem onlyNamedWritersChangeState : Obligations.OnlyNamedWritersChangeState := by
  intro i s t h
  obtain ⟨k, access, rfl⟩ | ⟨-, -, rfl⟩ := exec_next_cases h
  · refine ⟨?_, ?_, ?_, ?_, ?_, ?_, ?_, ?_, rfl, rfl, rfl, rfl⟩ <;> exact fun hne => absurd rfl hne
  · exact ⟨(effect_mem s i).resolve_left, (effect_idx s i).resolve_left, (effect_stack s i).resolve_left,
      (effect_dt s i).resolve_left, (effect_fb s i).resolve_left, (effect_renders s i).resolve_left,
      (effect_rng s i).resolve_left, (effect_halted s i).resolve_left, effect_config s i, effect_sched s i,
      effect_stopped s i, effect_finalRenderDone s i⟩

/-- Settles O47: a fault keeps the registers, and an effect that is no writer of VF keeps it. -/
theorem onlyFlagWritersChangeVF : Obligations.OnlyFlagWritersChangeVF := by
  intro i s t h hne
  obtain ⟨k, access, rfl⟩ | ⟨hregs, -, rfl⟩ := exec_next_cases h
  · exact absurd rfl hne
  · exact (effect_getV_VF s hregs).resolve_left hne

/-- Settles O39: the registers of a decoded instruction pass the guard, and its body raises only its row's kinds. -/
theorem instructionRaisesOnlyItsFaults : Obligations.InstructionRaisesOnlyItsFaults :=
  fun _ _ _ _ _ hd hs h hr => kind_mem_of_exec hd hs h hr

/-- Settles O40: the guard stands before every effect, and InvalidRegister is in no row of the fault table. -/
theorem registerIndexIsGuarded : Obligations.RegisterIndexIsGuarded := by
  refine ⟨fun i s hbad => exec_of_badRegister hbad, fun w i s t r hd hs h hr hk => ?_⟩
  exact invalidRegister_notMem_faultsOf i (hk ▸ kind_mem_of_exec hd hs h hr)

end Sys2Proof.Proofs
end

section
/-! Proofs about the fetch, the tick and the ends of a run (20_memory.md R51, 30_encoding.md R83 to R85, 60_exceptions.md R201
to R205, R224, R225): what a running step does, and where a run takes none. -/

namespace Sys2Proof.Machine

open Sys2Proof.Claims

/-! ## Fetch -/

theorem fetch_of_inMemory {s : State} (h : s.pc.toNat + 1 ≤ 0xFFF) :
    fetch s = some (joinBytes (s.mem.get s.pc.toNat) (s.mem.get (s.pc.toNat + 1))) := by
  rw [fetch_eq, if_pos h]

theorem fetch_pastMemory {s : State} (h : 0xFFF < s.pc.toNat + 1) : fetch s = none := by
  rw [fetch_eq, if_neg (Nat.not_le.mpr h)]

/-- A successful fetch lies inside memory. -/
theorem pc_of_fetch {s : State} {w : Word} (h : fetch s = some w) : s.pc.toNat + 1 ≤ 0xFFF := by
  by_contra hn
  rw [fetch_pastMemory (Nat.not_le.mp hn)] at h
  cases h

theorem fetch_afterChoice (s : State) : fetch s.afterChoice = fetch s := rfl

/-- After the fetch's advance the instruction's address is the old pc (00_scope.md R11). -/
@[simp] theorem State.advancePc_fetchedAt (s : State) : s.advancePc.fetchedAt = s.pc :=
  BitVec.add_sub_cancel s.pc 2#16

theorem tick_of_fetchFault {s : State} (h : fetch s = none) : tick s = raiseFetch s := by
  simp [tick, h]

/-- A word that decodes to nothing raises UnimplementedInstruction (30_encoding.md R85). -/
theorem runWord_of_reject {w : Word} {e : Reject} (s : State) (h : decode w = .error e) :
    runWord w s = raiseWith .unimplementedInstruction w none s := by
  simp [runWord, h]

/-- Fetching an illegal word raises UnimplementedInstruction at the advanced pc. -/
theorem tick_of_illegal {s : State} {w : Word} (hf : fetch s = some w) (hw : IllegalWord w) :
    tick s = raiseWith .unimplementedInstruction w none s.advancePc := by
  have hfails := (decode_fails_iff w).mpr hw
  cases hd : decode w with
  | ok i => exact absurd hd (hfails i)
  | error e => rw [tick_of_fetch hf, runWord_of_reject _ hd]

/-! ## The next step -/

theorem step_of_tick {s : State} (hr : s.Running) (ha : s.nextAction = .tick) : step s = tick s.afterChoice := by
  rw [step_of_running hr, ha]
  rfl

/-- With no turn left and no stop to come the next step is a Tick and the scheduler's data stay (log 3). -/
theorem choose_of_idle (c : Config) {d : Scheduler} (hagenda : d.agenda = []) (hstop : d.stopAfter = none) :
    choose c d = (.tick, d) := by
  obtain ⟨acc, agenda, stopAfter⟩ := d
  obtain rfl : agenda = [] := hagenda
  obtain rfl : stopAfter = none := hstop
  rfl

theorem perform_answers_next (a : Action) (s : State) : ∃ t, perform a s = .next t := by
  cases a with
  | tick =>
    obtain ⟨-, h⟩ | ⟨w, -, -, h⟩ | ⟨w, i, -, -, h⟩ := tick_cases s
    · exact ⟨_, h⟩
    · exact ⟨_, h⟩
    · obtain ⟨t, ht⟩ := exec_answers_next i s.advancePc
      exact ⟨t, h.trans ht⟩
  | timerDecay | refresh | stop => exact ⟨_, rfl⟩

/-! ## The ends of a run -/

section

variable {s : State}

theorem step_of_faulted {r : FaultRecord} (h : s.fault = some r) : step s = .fault (.runFaulted r) := by
  simp [step, stepOnce, h]

theorem step_of_stopped (hf : s.fault = none) (h : s.stopped = true) : step s = .fault .runStopped := by
  simp [step, stepOnce, hf, h]

theorem step_of_halted (hf : s.fault = none) (hs : s.stopped = false) (hh : s.halted = true)
    (hd : s.finalRenderDone = false) : step s = .next s.emitRender.setFinalRenderDone := by
  simp [step, stepOnce, hf, hs, hh, hd]

theorem step_of_rendered (hf : s.fault = none) (hs : s.stopped = false) (hh : s.halted = true)
    (hd : s.finalRenderDone = true) : step s = .fault .runHalted := by
  simp [step, stepOnce, hf, hs, hh, hd]

/-- Nothing is refused: a run that has ended answers a fault or its final render, any other a next state. -/
theorem step_ne_refused (s : State) (r : Refusal) : step s ≠ .refused r := by
  cases hf : s.fault with
  | some f => simp [step_of_faulted hf]
  | none =>
    cases hs : s.stopped with
    | true => simp [step_of_stopped hf hs]
    | false =>
      cases hh : s.halted with
      | true =>
        cases hd : s.finalRenderDone with
        | true => simp [step_of_rendered hf hs hh hd]
        | false => simp [step_of_halted hf hs hh hd]
      | false =>
        obtain ⟨t, ht⟩ := perform_answers_next s.nextAction s.afterChoice
        simp [step_of_running ⟨hf, hs, hh⟩, ht]

end

/-! ## What an atomic step does -/

/-- The state a tick leaves with a fault record: the old one with the record, and the pc advanced unless the fetch failed
(60_exceptions.md R201, R204, R205). -/
def State.faultEntry (s : State) (r : FaultRecord) : State :=
  { s with pc := if fetch s = none then s.pc else s.pc + 2#16, fault := some r }

theorem State.faultEntry_of_noFetch {s : State} (r : FaultRecord) (h : fetch s = none) :
    s.faultEntry r = s.setFault r := by
  rw [State.faultEntry, if_pos h]
  rfl

theorem State.faultEntry_of_fetch {s : State} {w : Word} (r : FaultRecord) (h : fetch s = some w) :
    s.faultEntry r = s.advancePc.setFault r := by
  rw [State.faultEntry, if_neg (by simp [h])]
  rfl

/-- The next state of a tick: a fault with a record of the fetch address and the fetched word, or the effect of the
instruction decoded at the advanced pc. -/
theorem tick_next_cases {s t : State} (h : tick s = .next t) :
    (∃ r : FaultRecord, r.addr = s.pc ∧ r.word = fetch s ∧ t = s.faultEntry r) ∨
    (∃ w i, fetch s = some w ∧ decode w = .ok i ∧ bodyFault s.advancePc i = none ∧ t = effect s.advancePc i) := by
  obtain ⟨hf, ht⟩ | ⟨w, hf, -, ht⟩ | ⟨w, i, hf, hd, ht⟩ := tick_cases s <;> rw [ht] at h
  · obtain rfl := Host.Outcome.next.inj h
    exact .inl ⟨_, rfl, hf.symm, (State.faultEntry_of_noFetch _ hf).symm⟩
  · obtain rfl := Host.Outcome.next.inj h
    exact .inl ⟨_, s.advancePc_fetchedAt, hf.symm, (State.faultEntry_of_fetch _ hf).symm⟩
  · obtain ⟨-, hword⟩ := encode_of_decode hd
    obtain ⟨k, access, rfl⟩ | ⟨-, hnone, rfl⟩ := exec_next_cases h
    · refine .inl ⟨_, s.advancePc_fetchedAt, ?_, (State.faultEntry_of_fetch _ hf).symm⟩
      rw [hf, ← hword]
      rfl
    · exact .inr ⟨w, i, hf, hd, hnone, rfl⟩

/-- The next state of an atomic step, by its kind. -/
theorem perform_next_cases {a : Action} {s t : State} (h : perform a s = .next t) :
    (a = .tick ∧ tick s = .next t) ∨ (a = .timerDecay ∧ t = s.timerDecay) ∨ (a = .refresh ∧ t = s.emitRender) ∨
      (a = .stop ∧ t = s.setStopped) := by
  cases a with
  | tick => exact .inl ⟨rfl, h⟩
  | timerDecay => exact .inr (.inl ⟨rfl, (Host.Outcome.next.inj h).symm⟩)
  | refresh => exact .inr (.inr (.inl ⟨rfl, (Host.Outcome.next.inj h).symm⟩))
  | stop => exact .inr (.inr (.inr ⟨rfl, (Host.Outcome.next.inj h).symm⟩))

/-- An atomic step that leaves a fault record in a state without one is a Tick that entered the fault. -/
theorem perform_faults_precisely {a : Action} {s t : State} {r : FaultRecord} (hs : s.fault = none)
    (h : perform a s = .next t) (hr : t.fault = some r) :
    a = .tick ∧ r.addr = s.pc ∧ r.word = fetch s ∧ t = s.faultEntry r := by
  obtain ⟨rfl, htick⟩ | ⟨-, rfl⟩ | ⟨-, rfl⟩ | ⟨-, rfl⟩ := perform_next_cases h
  · obtain ⟨r', haddr, hword, rfl⟩ | ⟨w, i, -, -, -, rfl⟩ := tick_next_cases htick
    · obtain rfl := Option.some.inj hr
      exact ⟨rfl, haddr, hword, rfl⟩
    · rw [effect_fault, State.advancePc_fault, hs] at hr
      cases hr
  · rw [State.timerDecay_eq, State.setDt_fault, hs] at hr
    cases hr
  · rw [State.emitRender_fault, hs] at hr
    cases hr
  · rw [State.setStopped_fault, hs] at hr
    cases hr

end Sys2Proof.Machine

namespace Sys2Proof.Proofs

open Sys2Proof.Machine

/-- Settles O9: the bounds test is the formula, and a range delivers the bytes at its addresses. -/
theorem memoryReadChecksWholeRange : Obligations.MemoryReadChecksWholeRange := by
  refine fun m a n => ⟨?fails, fun bs h => ?bytes⟩
  case fails =>
    rw [memRead_eq_none_iff, ← Bool.not_eq_true, inBounds_iff]
    omega
  case bytes =>
    obtain ⟨-, rfl⟩ := memRead_eq_some_iff.mp h
    refine ⟨m.length_range a n, fun k hk => ?_⟩
    rw [← m.getD_range a n k hk, List.getD_eq_getElem?_getD]
    simp [hk]

/-- Settles O4: the dispatch answers no instruction exactly on the illegal words, and the tick that fetched one enters the
fault at the advanced pc. -/
theorem illegalWordRaisesUnimplemented : Obligations.IllegalWordRaisesUnimplemented := by
  refine ⟨fun w => (decode_fails_iff w).symm, fun s w hr ha hf hw => ?_⟩
  rw [step_of_tick hr ha, tick_of_illegal ((fetch_afterChoice s).trans hf) hw, raiseWith, State.advancePc_fetchedAt]
  rfl

/-- Settles O6: the fetch joins the two bytes at the pc, and a word that decodes runs its instruction. -/
theorem stepRunsDecodedInstruction : Obligations.StepRunsDecodedInstruction := by
  refine ⟨fun s i hr ha hpc hd => ?_, fun s hagenda hstop => ?_⟩
  · have hf : fetch s.afterChoice = some (s.mem.get s.pc.toNat ++ s.mem.get (s.pc.toNat + 1)) := fetch_of_inMemory hpc
    rw [step_of_tick hr ha, tick_of_fetch hf, runWord_of_decode _ hd]
    rfl
  · have hidle := choose_of_idle s.config hagenda hstop
    exact ⟨congrArg Prod.fst hidle, congrArg (fun p : Action × Scheduler => s.setSched p.2) hidle⟩

/-- Settles O7: past 0xFFF the fetch delivers no word, and the tick enters the fetch's fault. -/
theorem fetchPastMemoryFaults : Obligations.FetchPastMemoryFaults := by
  intro s hr ha hpc
  rw [step_of_tick hr ha, tick_of_fetchFault ((fetch_afterChoice s).trans (fetch_pastMemory hpc))]
  rfl

/-- Settles O41: only a Tick faults, and it enters the fault of its fetch or of its instruction at the advanced pc; the
recorded word is the fetched one, since it is the encoding of what it decodes to. -/
theorem faultsArePrecise : Obligations.FaultsArePrecise := by
  intro s t r hr h ht
  rw [step_of_running hr] at h
  obtain ⟨hs, -, -⟩ := hr
  obtain ⟨ha, haddr, hword, rfl⟩ := perform_faults_precisely (s := s.afterChoice) hs h ht
  exact ⟨ha, haddr, hword, rfl⟩

/-- Settles O42: the ends are looked at as fault, stop, halt; the final render changes only its mark and the log. -/
theorem endedRunTakesNoStep : Obligations.EndedRunTakesNoStep :=
  ⟨fun _ _ => step_of_faulted, fun _ => step_of_stopped, fun _ hf hs hh hd =>
    ⟨step_of_halted hf hs hh hd, step_of_rendered hf hs hh rfl⟩⟩

/-- Settles O43: each of the four atomic steps answers a next state, a tick because every instruction does. -/
theorem runningBlockAlwaysSteps : Obligations.RunningBlockAlwaysSteps := by
  refine ⟨fun s hr => ?_, step_ne_refused⟩
  rw [step_of_running hr]
  exact perform_answers_next s.nextAction s.afterChoice

end Sys2Proof.Proofs
end

section
/-! Proofs about what every step keeps (10_state.md R24, R27, R33, R36, 20_memory.md R57, 40_display.md R103): the stores, the
halt, the render requests, the scheduler's data and the invariant. -/

namespace Sys2Proof.Machine

open Sys2Proof.Claims

/-! ## The effect of an instruction on memory, pc and requests -/

section

variable (s : State)

/-- An instruction leaves memory or makes one allowed store at I. -/
theorem effect_store {i : Instr} (hnone : bodyFault s i = none) : (effect s i).mem = s.mem ∨
    ∃ bs : List Byte, mayWrite s.config s.idx.toNat bs.length = true ∧
      (effect s i).mem = s.mem.putAll s.idx.toNat bs := by
  obtain hmem | ⟨x, rfl | rfl⟩ := effect_mem s i
  · exact .inl hmem
  · exact .inr ⟨decimalDigits (s.getV x), bodyFault_opFX33_eq_none_iff.mp hnone, rfl⟩
  · refine .inr ⟨s.block 0 (x + 1), ?_, rfl⟩
    rw [State.length_block]
    exact bodyFault_opFX55_eq_none_iff.mp hnone

/-- An instruction keeps the pc, skips, jumps to an immediate, or returns. -/
theorem effect_pc (i : Instr) : (effect s i).pc = s.pc ∨ (effect s i).pc = s.pc + 2#16 ∨
    (∃ a, (effect s i).pc = zext16 a) ∨ i = .op00EE := by
  have hskip (c : Prop) [Decidable c] :
      (if c then s.pc + 2#16 else s.pc) = s.pc ∨ (if c then s.pc + 2#16 else s.pc) = s.pc + 2#16 := by
    split <;> simp
  have hskip' (c : Prop) [Decidable c] :
      (if c then s.pc else s.pc + 2#16) = s.pc ∨ (if c then s.pc else s.pc + 2#16) = s.pc + 2#16 := by
    split <;> simp
  cases i with
  | op3XNN | op5XY0 => exact (hskip _).imp_right .inl
  | op4XNN | op9XY0 => exact (hskip' _).imp_right .inl
  | op1NNN a | op2NNN a => exact .inr (.inr (.inl ⟨a, rfl⟩))
  | op00EE => exact .inr (.inr (.inr rfl))
  | _ => exact .inl rfl

/-- An instruction emits a request with the grid it leaves exactly if it draws or clears. -/
theorem effect_renders_eq (i : Instr) : (effect s i).renders =
    if drawsOrClears i then (effect s i).fb :: s.renders else s.renders := by
  cases i <;> rfl

/-! ## The scheduler's data -/

theorem State.block_setSched (d : Scheduler) (r n : Nat) : (s.setSched d).block r n = s.block r n := by
  induction n generalizing r with
  | zero => rfl
  | succ n ih => rw [State.block, State.block, ih, State.getV_setSched]

theorem State.loadBlock_setSched (d : Scheduler) (r : Nat) (bs : List Byte) :
    (s.setSched d).loadBlock r bs = (s.loadBlock r bs).setSched d := by
  induction bs generalizing s r with
  | nil => rfl
  | cons b bs ih => exact ih (s.setV r b) (r + 1)

theorem bodyFault_setSched (d : Scheduler) (i : Instr) : bodyFault (s.setSched d) i = bodyFault s i := by
  cases i <;> rfl

theorem effect_setSched (d : Scheduler) (i : Instr) : effect (s.setSched d) i = (effect s i).setSched d := by
  cases i with
  | opFX55 x =>
    rw [effect, State.block_setSched]
    rfl
  | opFX65 x =>
    rw [effect, State.loadBlock_setSched]
    rfl
  | _ => rfl

end

/-- No instruction reads the scheduler's data (10_state.md R36). -/
theorem exec_setSched {s t : State} {i : Instr} (d : Scheduler) (h : exec i s = .next t) :
    exec i (s.setSched d) = .next (t.setSched d) := by
  obtain ⟨hbad, he⟩ | ⟨hregs, k, access, hk, he⟩ | ⟨hregs, hnone, he⟩ := exec_cases s i <;>
    obtain rfl := Host.Outcome.next.inj (he.symm.trans h)
  · exact exec_of_badRegister hbad
  · exact exec_of_fault hregs ((bodyFault_setSched s d i).trans hk)
  · rw [exec_of_noFault (s := s.setSched d) hregs ((bodyFault_setSched s d i).trans hnone), effect_setSched]

theorem tick_setSched {s t : State} (d : Scheduler) (h : tick s = .next t) :
    tick (s.setSched d) = .next (t.setSched d) := by
  obtain ⟨hf, ht⟩ | ⟨w, hf, ⟨e, hd⟩, ht⟩ | ⟨w, i, hf, hd, ht⟩ := tick_cases s <;> rw [ht] at h
  · obtain rfl := Host.Outcome.next.inj h
    exact tick_of_fetchFault (s := s.setSched d) hf
  · obtain rfl := Host.Outcome.next.inj h
    rw [tick_of_fetch (s := s.setSched d) hf, runWord_of_reject _ hd]
    rfl
  · rw [tick_of_fetch (s := s.setSched d) hf, runWord_of_decode _ hd]
    exact exec_setSched d h

/-- No atomic step reads the scheduler's data. -/
theorem perform_setSched {a : Action} {s t : State} (d : Scheduler) (h : perform a s = .next t) :
    perform a (s.setSched d) = .next (t.setSched d) := by
  obtain ⟨rfl, htick⟩ | ⟨rfl, rfl⟩ | ⟨rfl, rfl⟩ | ⟨rfl, rfl⟩ := perform_next_cases h
  · exact tick_setSched d htick
  · rw [State.timerDecay_eq]
    exact congrArg Host.Outcome.next (State.timerDecay_eq (s.setSched d))
  · rfl
  · rfl

theorem tick_sched {s t : State} (h : tick s = .next t) : t.sched = s.sched := by
  obtain ⟨r, -, -, rfl⟩ | ⟨w, i, -, -, -, rfl⟩ := tick_next_cases h
  · rfl
  · rw [effect_sched, State.advancePc_sched]

/-- No atomic step changes the scheduler's data. -/
theorem perform_sched {a : Action} {s t : State} (h : perform a s = .next t) : t.sched = s.sched := by
  obtain ⟨-, htick⟩ | ⟨-, rfl⟩ | ⟨-, rfl⟩ | ⟨-, rfl⟩ := perform_next_cases h
  · exact tick_sched htick
  · rw [State.timerDecay_eq, State.setDt_sched]
  · rfl
  · rfl

/-! ## The font region -/

theorem tick_font {s t : State} {a : Nat} (h : tick s = .next t) (hp : s.config.fontProtect = true) (h1 : 0x050 ≤ a)
    (h2 : a ≤ 0x09F) : t.mem.get a = s.mem.get a := by
  obtain ⟨r, -, -, rfl⟩ | ⟨w, i, -, -, hnone, rfl⟩ := tick_next_cases h
  · rfl
  · obtain hmem | ⟨bs, hw, hmem⟩ := effect_store s.advancePc hnone
    · rw [hmem, State.advancePc_mem]
    · rw [hmem, get_putAll_font hw hp h1 (Nat.lt_succ_of_le h2), State.advancePc_mem]

theorem perform_font {a : Action} {s t : State} {b : Nat} (h : perform a s = .next t)
    (hp : s.config.fontProtect = true) (h1 : 0x050 ≤ b) (h2 : b ≤ 0x09F) : t.mem.get b = s.mem.get b := by
  obtain ⟨-, htick⟩ | ⟨-, rfl⟩ | ⟨-, rfl⟩ | ⟨-, rfl⟩ := perform_next_cases h
  · exact tick_font htick hp h1 h2
  · rw [State.timerDecay_eq, State.setDt_mem]
  · rfl
  · rfl

/-! ## The halt (10_state.md R33, 41_control_flow.md R122) -/

/-- A tick that sets halted ran 1NNN at its own address: the jump leaves the pc where it was. -/
theorem tick_halts {s t : State} (h : tick s = .next t) (hs : s.halted = false) (ht : t.halted = true) :
    s.config.haltOnSelfJump = true ∧ t.pc = s.pc ∧
      ∃ nnn : Addr12, fetch s = some (0x1#4 ++ nnn) ∧ s.pc.toNat = nnn.toNat := by
  obtain ⟨r, -, -, rfl⟩ | ⟨w, i, hf, hd, -, rfl⟩ := tick_next_cases h
  · exact absurd (hs.symm.trans ht) (by decide)
  · obtain hsame | ⟨nnn, rfl⟩ := effect_halted s.advancePc i
    · rw [hsame, State.advancePc_halted, hs] at ht
      cases ht
    · obtain ⟨-, rfl⟩ := encode_of_decode hd
      have hjump : s.config.haltOnSelfJump = true ∧ zext16 nnn = s.pc := by
        simpa [effect, hs, State.advancePc_fetchedAt] using ht
      obtain ⟨hon, hpc⟩ := hjump
      refine ⟨hon, hpc, nnn, hf, ?_⟩
      rw [← hpc, toNat_zext16]

theorem perform_halts {a : Action} {s t : State} (h : perform a s = .next t) (hs : s.halted = false)
    (ht : t.halted = true) : a = .tick ∧ tick s = .next t := by
  obtain htick | ⟨-, rfl⟩ | ⟨-, rfl⟩ | ⟨-, rfl⟩ := perform_next_cases h
  · exact htick
  · rw [State.timerDecay_eq, State.setDt_halted, hs] at ht
    cases ht
  · rw [State.emitRender_halted, hs] at ht
    cases ht
  · rw [State.setStopped_halted, hs] at ht
    cases ht

/-! ## Render requests (40_display.md R103) -/

/-- A Tick without a fault that runs an instruction of the display. -/
def RunsDisplay (s t : State) : Prop :=
  t.fault = none ∧ ∃ w i, fetch s = some w ∧ decode w = .ok i ∧ drawsOrClears i = true

/-- A tick emits one request, with the grid it leaves, exactly if it ran an instruction of the display. -/
theorem tick_renders {s t : State} (h : tick s = .next t) (hs : s.fault = none) :
    (RunsDisplay s t ∧ t.renders = t.fb :: s.renders) ∨ (¬RunsDisplay s t ∧ t.renders = s.renders) := by
  obtain ⟨r, -, -, rfl⟩ | ⟨w, i, hf, hd, -, rfl⟩ := tick_next_cases h
  · exact .inr ⟨fun hrun => Option.some_ne_none r hrun.1, rfl⟩
  · have hfault : (effect s.advancePc i).fault = none := by rw [effect_fault, State.advancePc_fault, hs]
    have hrenders := effect_renders_eq s.advancePc i
    cases hdraws : drawsOrClears i with
    | true => exact .inl ⟨⟨hfault, w, i, hf, hd, hdraws⟩, by simpa [hdraws] using hrenders⟩
    | false =>
      refine .inr ⟨?_, by simpa [hdraws] using hrenders⟩
      rintro ⟨-, w', i', hf', hd', hdraws'⟩
      obtain rfl : w = w' := Option.some.inj (hf.symm.trans hf')
      obtain rfl : i = i' := Except.ok.inj (hd.symm.trans hd')
      exact absurd (hdraws.symm.trans hdraws') (by decide)

/-- Where a step emits a render request: the final render, a Refresh, or a Tick that ran the display. -/
def EmitsRender (s t : State) : Prop :=
  s.halted = true ∨ s.nextAction = .refresh ∨ (s.nextAction = .tick ∧ RunsDisplay s t)

/-- A step emits one request, with the grid it leaves, exactly where `EmitsRender` says. -/
theorem step_renders {s t : State} (h : step s = .next t) :
    (EmitsRender s t ∧ t.renders = t.fb :: s.renders) ∨ (¬EmitsRender s t ∧ t.renders = s.renders) := by
  obtain ⟨-, -, hh, -, rfl⟩ | ⟨⟨hs, -, hh⟩, hperform⟩ := step_next_cases h
  · exact .inl ⟨.inl hh, rfl⟩
  · obtain ⟨ha, htick⟩ | ⟨ha, rfl⟩ | ⟨ha, rfl⟩ | ⟨ha, rfl⟩ := perform_next_cases hperform
    · have hemits : EmitsRender s t ↔ RunsDisplay s t := by simp [EmitsRender, hh, ha]
      rw [hemits]
      exact tick_renders (s := s.afterChoice) htick hs
    · refine .inr ⟨by simp [EmitsRender, hh, ha], ?_⟩
      rw [State.timerDecay_eq]
      rfl
    · exact .inl ⟨.inr (.inl ha), rfl⟩
    · exact .inr ⟨by simp [EmitsRender, hh, ha], rfl⟩

end Sys2Proof.Machine

namespace Sys2Proof.Proofs

open Sys2Proof.Machine

/-- Settles O51: an atomic step neither writes the scheduler's data nor looks at them. -/
theorem schedulerIsInvisibleToSteps : Obligations.SchedulerIsInvisibleToSteps :=
  fun _ _ _ d h => ⟨perform_sched h, perform_setSched d h⟩

/-- Settles O49: every byte written is written by an allowed store, which FONT_PROTECT keeps off the font. -/
theorem protectedFontNeverChanges : Obligations.ProtectedFontNeverChanges := by
  intro s t a h hp h1 h2
  obtain ⟨-, -, -, -, rfl⟩ | ⟨-, hperform⟩ := step_next_cases h
  · rfl
  · exact perform_font (s := s.afterChoice) hperform hp h1 h2

/-- Settles O45: of all that a step can do only the effect of 1NNN sets halted, and nothing clears it. -/
theorem onlySelfJumpHalts : Obligations.OnlySelfJumpHalts := by
  refine ⟨fun s t hr h ht => ?_, fun s t h hs => ?_⟩
  · rw [step_of_running hr] at h
    obtain ⟨-, -, hs⟩ := hr
    obtain ⟨ha, htick⟩ := perform_halts (s := s.afterChoice) h hs ht
    exact ⟨ha, tick_halts (s := s.afterChoice) htick hs ht⟩
  · obtain ⟨-, -, -, -, rfl⟩ | ⟨⟨-, -, hrun⟩, -⟩ := step_next_cases h
    · exact hs
    · exact absurd (hrun.symm.trans hs) (by decide)

/-- Settles O48: a step that emits adds one request, which no list equals without it. -/
theorem renderRequestsOnlyWhereNamed : Obligations.RenderRequestsOnlyWhereNamed := by
  intro s t h
  obtain ⟨hemits, hrenders⟩ | ⟨hemits, hrenders⟩ := step_renders h
  · exact ⟨.inr hrenders, fun _ => hemits, fun _ => hrenders⟩
  · refine ⟨.inl hrenders, fun hlonger => ?_, fun hemits' => absurd hemits' hemits⟩
    exact absurd (hlonger.symm.trans hrenders) (List.cons_ne_self _ _)

end Sys2Proof.Proofs
end

section
/-! Proofs about the invariant (10_state.md R24, R27, 60_exceptions.md R232): every atomic step keeps it, and so does the
final render; construction starts in it. -/

namespace Sys2Proof.Machine

open Sys2Proof.Claims

/-! ## The parts of the invariant under an instruction -/

section

variable {s : State} {i : Instr}

/-- A zero-extended address fits the address space (10_state.md R24). -/
theorem zext16_le (a : Addr12) : (zext16 a).toNat ≤ 0xFFF := by
  rw [toNat_zext16]
  exact Nat.le_of_lt_succ a.isLt

theorem wrapIndex_le (w : Word) (k : Nat) : (wrapIndex w k).toNat ≤ 0xFFF := by
  rw [wrapIndex_toNat]
  exact Nat.le_of_lt_succ (Nat.mod_lt _ (by decide))

theorem toNat_glyphAddress {d : Byte} (h : d.toNat ≤ 0xF) : (glyphAddress d).toNat = 0x050 + 5 * d.toNat := by
  rw [glyphAddress, if_pos h, BitVec.toNat_ofNat]
  omega

theorem glyphAddress_of_gt {d : Byte} (h : 0xF < d.toNat) : glyphAddress d = Config.glyphOor d :=
  if_neg (Nat.not_le.mpr h)

theorem glyphAddress_le (hoor : ∀ d : Byte, 0xF < d.toNat → (Config.glyphOor d).toNat ≤ 0xFFF) (d : Byte) :
    (glyphAddress d).toNat ≤ 0xFFF := by
  by_cases h : d.toNat ≤ 0xF
  · rw [toNat_glyphAddress h]
    omega
  · rw [glyphAddress_of_gt (Nat.not_le.mp h)]
    exact hoor d (Nat.not_le.mp h)

theorem steppedIndex_le (hq : s.config.storeLoadIncrementsIndex = true) (n : Nat) :
    (s.steppedIndex n).toNat ≤ 0xFFF := by
  rw [State.steppedIndex_on n hq]
  exact wrapIndex_le s.idx n

theorem effect_mem_wf (h : s.mem.wf = true) (hnone : bodyFault s i = none) : (effect s i).mem.wf = true := by
  obtain hmem | ⟨bs, hw, hmem⟩ := effect_store s hnone <;> rw [hmem]
  · exact h
  · obtain ⟨-, -, hend⟩ := (inBounds_iff _ _).mp (inBounds_of_mayWrite hw)
    exact Memory.wf_putAll h hend

theorem toNat_add_two {w : Word} (h : w.toNat ≤ 0x1000) : (w + 2#16).toNat = w.toNat + 2 :=
  BitVec.toNat_add_of_lt (show w.toNat + 2 < 65536 by omega)

/-- "After a fetch `pc <= 0x1000` and after a skip `pc <= 0x1002`" (10_state.md R27). -/
theorem effect_pc_le (hpc : s.pc.toNat ≤ 0x1000) (hstack : ∀ a ∈ s.stack, a.toNat ≤ 0x1000) :
    (effect s i).pc.toNat ≤ 0x1002 := by
  obtain h | h | ⟨a, h⟩ | rfl := effect_pc s i
  · rw [h]
    omega
  · rw [h, toNat_add_two hpc]
    omega
  · have := zext16_le a
    rw [h]
    omega
  · change (s.stack.headD 0#16).toNat ≤ 0x1002
    cases hs : s.stack with
    | nil => decide
    | cons a rest => exact (hstack a (by simp [hs])).trans (by decide)

theorem effect_stack_le (hpc : s.pc.toNat ≤ 0x1000) (hstack : ∀ a ∈ s.stack, a.toNat ≤ 0x1000) :
    ∀ a ∈ (effect s i).stack, a.toNat ≤ 0x1000 := by
  obtain h | rfl | ⟨nnn, rfl⟩ := effect_stack s i
  · rwa [h]
  · exact fun a ha => hstack a (List.mem_of_mem_tail ha)
  · exact List.forall_mem_cons.mpr ⟨hpc, hstack⟩

theorem State.stackFull_of_some {s : State} {cap : Nat} (h : s.config.stackCap = some cap) :
    s.stackFull = decide (cap ≤ s.stack.length) := by
  simp [State.stackFull, h]

theorem effect_stack_length (hcap : ∀ cap, s.config.stackCap = some cap → s.stack.length ≤ cap)
    (hnone : bodyFault s i = none) :
    ∀ cap, s.config.stackCap = some cap → (effect s i).stack.length ≤ cap := by
  intro cap hc
  have hold := hcap cap hc
  obtain h | rfl | ⟨nnn, rfl⟩ := effect_stack s i
  · rwa [h]
  · exact (List.length_tail.trans_le (Nat.sub_le _ _)).trans hold
  · have hroom := bodyFault_op2NNN_eq_none_iff.mp hnone
    rw [State.stackFull_of_some hc, decide_eq_false_iff_not] at hroom
    exact Nat.not_le.mp hroom

theorem effect_idx_le (hoor : ∀ d : Byte, 0xF < d.toNat → (Config.glyphOor d).toNat ≤ 0xFFF)
    (hidx : s.idx.toNat ≤ 0xFFF) : (effect s i).idx.toNat ≤ 0xFFF := by
  obtain h | ⟨a, rfl⟩ | ⟨x, rfl | rfl | ⟨hq, rfl | rfl⟩⟩ := effect_idx s i
  · rwa [h]
  · exact zext16_le a
  · exact wrapIndex_le _ _
  · exact glyphAddress_le hoor _
  · exact steppedIndex_le hq (x + 1)
  · exact steppedIndex_le hq (x + 1)

end

/-! ## The invariant under each kind of step -/

section

variable {s : State} (hi : Inv s)

include hi

theorem Inv.setSched (d : Scheduler) : Inv (s.setSched d) :=
  ⟨hi.memory, hi.pcBound, hi.stackBound, hi.stackCap, hi.indexBound, hi.oneEnd, hi.finalRender⟩

theorem Inv.timerDecay : Inv s.timerDecay := by
  rw [State.timerDecay_eq]
  exact ⟨hi.memory, hi.pcBound, hi.stackBound, hi.stackCap, hi.indexBound, hi.oneEnd, hi.finalRender⟩

theorem Inv.emitRender : Inv s.emitRender :=
  ⟨hi.memory, hi.pcBound, hi.stackBound, hi.stackCap, hi.indexBound, hi.oneEnd, hi.finalRender⟩

theorem Inv.setFinalRenderDone (hh : s.halted = true) : Inv s.setFinalRenderDone :=
  ⟨hi.memory, hi.pcBound, hi.stackBound, hi.stackCap, hi.indexBound, hi.oneEnd, fun _ => hh⟩

theorem Inv.setStopped (hr : s.Running) : Inv s.setStopped := by
  obtain ⟨hf, -, hh⟩ := hr
  exact ⟨hi.memory, hi.pcBound, hi.stackBound, hi.stackCap, hi.indexBound,
    ⟨by simp [hf], by simp [hh]⟩, hi.finalRender⟩

/-- A run that has not ended has not made its final render. -/
theorem Inv.finalRenderDone_eq_false (hh : s.halted = false) : s.finalRenderDone = false := by
  by_contra hd
  rw [Bool.not_eq_false] at hd
  exact absurd (hh.symm.trans (hi.finalRender hd)) (by decide)

theorem Inv.faultEntry (hr : s.Running) (r : FaultRecord) : Inv (s.faultEntry r) := by
  obtain ⟨-, hs, hh⟩ := hr
  refine ⟨hi.memory, ?_, hi.stackBound, hi.stackCap, hi.indexBound, ⟨fun _ => ⟨hh, hs⟩, fun _ => hs⟩, hi.finalRender⟩
  cases hf : fetch s with
  | none =>
    rw [State.faultEntry_of_noFetch r hf]
    exact hi.pcBound
  | some w =>
    have := pc_of_fetch hf
    rw [State.faultEntry_of_fetch r hf, State.setFault_pc, State.advancePc_pc, toNat_add_two (by omega)]
    omega

/-- An instruction that raises nothing keeps the invariant from a running state whose pc a fetch has just advanced. -/
theorem Inv.effect {i : Instr} (hr : s.Running) {w : Word} (hf : fetch s = some w)
    (hnone : bodyFault s.advancePc i = none) : Inv (effect s.advancePc i) := by
  obtain ⟨hfault, hs, hh⟩ := hr
  have hpc : s.advancePc.pc.toNat ≤ 0x1000 := by
    have := pc_of_fetch hf
    rw [State.advancePc_pc, toNat_add_two (by omega)]
    omega
  refine ⟨effect_mem_wf hi.memory hnone, effect_pc_le hpc hi.stackBound, effect_stack_le hpc hi.stackBound, ?_,
    fun hoor => effect_idx_le hoor (hi.indexBound hoor), ⟨?_, ?_⟩, ?_⟩
  · rw [effect_config]
    exact effect_stack_length hi.stackCap hnone
  · rw [effect_fault, State.advancePc_fault, hfault]
    simp
  · rw [effect_stopped]
    exact fun _ => hs
  · rw [effect_finalRenderDone, State.advancePc_finalRenderDone, hi.finalRenderDone_eq_false hh]
    simp

theorem Inv.tick (hr : s.Running) {t : State} (h : tick s = .next t) : Inv t := by
  obtain ⟨r, -, -, rfl⟩ | ⟨w, i, hf, -, hnone, rfl⟩ := tick_next_cases h
  · exact hi.faultEntry hr r
  · exact hi.effect hr hf hnone

theorem Inv.perform (hr : s.Running) {a : Action} {t : State} (h : perform a s = .next t) : Inv t := by
  obtain ⟨-, htick⟩ | ⟨-, rfl⟩ | ⟨-, rfl⟩ | ⟨-, rfl⟩ := perform_next_cases h
  · exact hi.tick hr htick
  · exact hi.timerDecay
  · exact hi.emitRender
  · exact hi.setStopped hr

theorem Inv.step {t : State} (h : step s = .next t) : Inv t := by
  obtain ⟨-, -, hh, -, rfl⟩ | ⟨hr, hperform⟩ := step_next_cases h
  · exact hi.emitRender.setFinalRenderDone hh
  · exact Inv.perform (s := s.afterChoice) (hi.setSched _) hr hperform

end

/-! ## The reset state (70_reset_and_hazards.md R240) -/

/-- Whatever canonical memory, configuration and random source it starts with, the reset state meets the invariant. -/
theorem inv_reset {m : Memory} (hm : m.wf = true) (c : Config) (r : Rng) :
    Inv { State.reset with mem := m, config := c, rng := r } where
  memory := hm
  pcBound := by simp [State.reset]
  stackBound := by simp [State.reset]
  stackCap := fun _ _ => Nat.zero_le _
  indexBound := fun _ => Nat.zero_le _
  oneEnd := by simp [State.reset]
  finalRender := by simp [State.reset]

/-- Off the font an unlisted byte reads 0 (20_memory.md R53). -/
theorem Memory.initial_off_font {a : Nat} (h : a < 0x050 ∨ 0x09F < a) : Memory.initial a = 0#8 :=
  if_neg (by omega)

/-- In the font region an unlisted byte is the default font's (20_memory.md R53, R56). -/
theorem Memory.initial_font {k : Nat} (h : k < 80) : some (Memory.initial (0x050 + k)) = Config.defaultFont[k]? := by
  have hlen : k < Config.defaultFont.length := h
  rw [Memory.initial, if_pos (by omega), Nat.add_sub_cancel_left, List.getD_eq_getElem?_getD]
  simp [hlen]

/-! ## Construction (70_reset_and_hazards.md R240, R242) -/

section

variable (c : Config) (font : Vector Byte 80) (r : Rng) {image : List Byte}

/-- The memory after FONT is written over the zeroes. -/
def fontMemory : Memory := Memory.putAll [] 0x050 font.toList

theorem fontMemory_wf : (fontMemory font).wf = true :=
  Memory.wf_putAll rfl (by simp)

theorem State.booted_mem : (State.booted c font r image).mem = (fontMemory font).putAll 0x200 image := rfl

theorem State.booted_mem_wf (h : image.length ≤ 3584) : (State.booted c font r image).mem.wf = true :=
  Memory.wf_putAll (fontMemory_wf font) (by omega)

theorem State.booted_font {k : Nat} (hk : k < 80) :
    some ((State.booted c font r image).mem.get (0x050 + k)) = font[k]? := by
  rw [State.booted_mem, Memory.get_putAll_ne _ image (.inl (by omega)), fontMemory,
    Memory.get_putAll rfl (by simp) (by simpa using hk)]
  simp [hk]

theorem State.booted_image (h : image.length ≤ 3584) {k : Nat} (hk : k < image.length) :
    some ((State.booted c font r image).mem.get (0x200 + k)) = image[k]? := by
  rw [State.booted_mem, Memory.get_putAll (fontMemory_wf font) (by omega) hk]
  simp [hk]

theorem State.booted_zero {a : Nat} (hfont : a < 0x050 ∨ 0x09F < a) (himage : a < 0x200 ∨ 0x200 + image.length ≤ a) :
    (State.booted c font r image).mem.get a = 0#8 := by
  have hlen : font.toList.length = 80 := by simp
  rw [State.booted_mem, Memory.get_putAll_ne _ image himage, fontMemory, Memory.get_putAll_ne _ _ (by omega)]
  exact Memory.initial_off_font hfont

end

end Sys2Proof.Machine

namespace Sys2Proof.Proofs

open Sys2Proof.Machine

/-- Settles O58: the choice of the next step, its four kinds and the final render each keep the invariant; an instruction
keeps it part by part, each part by its writers. -/
theorem stepKeepsInvariant : Obligations.StepKeepsInvariant :=
  fun _ _ hi h => hi.step h

/-- Settles O59: empty memory is canonical, and the reset state starts in the invariant with any canonical memory. -/
theorem resetMeetsInvariant : Obligations.ResetMeetsInvariant :=
  inv_reset (m := []) rfl Config.standard State.reset.rng

/-- Settles O56: the registers and pixels of reset are replicated zeroes, and no address is listed, so each byte is the
initial one. -/
theorem resetStateIsAsListed : Obligations.ResetStateIsAsListed := by
  refine ⟨fun r _ => State.getV_reset r, rfl, rfl, rfl, rfl, rfl, rfl, rfl, rfl, rfl, rfl, rfl, rfl, rfl, rfl, rfl, rfl,
    rfl, rfl, rfl, rfl, rfl, rfl, rfl, rfl, rfl, Framebuffer.pixel_clear, ?_, ?_⟩
  · exact fun k hk => Memory.initial_font hk
  · exact fun a _ ha => Memory.initial_off_font ha

/-- Settles O57: the image lies above the font, so each byte of memory is the image's, the font's or initial; an image that
does not fit fails before anything is built. -/
theorem constructionLoadsFontAndImage : Obligations.ConstructionLoadsFontAndImage := by
  intro c font r image
  refine ⟨fun hfits => ⟨State.booted c font r image, if_pos hfits, rfl, ?_, ?_, ?_, ?_⟩, fun hlong => ?_⟩
  · exact inv_reset (State.booted_mem_wf c font r hfits) c r
  · exact fun k hk => State.booted_font c font r hk
  · exact fun k hk => State.booted_image c font r hfits hk
  · exact fun a _ hfont himage => State.booted_zero c font r hfont himage
  · exact if_neg (Nat.not_le.mpr hlong)

end Sys2Proof.Proofs
end

section
/-! Proofs about the scheduler and the timer (60_exceptions.md R220 to R225, 70_reset_and_hazards.md R247): the choices of an
iteration, where a stop lands, finite schedules as runs, and the timer's decay. -/

namespace Sys2Proof.Machine

open Sys2Proof.Claims

/-! ## Sequences of choices -/

section

variable {c : Config}

theorem choices_add (m n : Nat) (d : Scheduler) : choices c (m + n) d =
    ((choices c m d).1 ++ (choices c n (choices c m d).2).1, (choices c n (choices c m d).2).2) := by
  induction m generalizing d with
  | zero => simp [choices]
  | succ m ih => simp [Nat.succ_add, choices, ih]

/-- A loop of the scheduler: data that give the same step `n` times over. -/
theorem choices_loop {a : Action} {loop : Nat → Scheduler} (h : ∀ k, choose c (loop (k + 1)) = (a, loop k)) (n : Nat) :
    choices c n (loop n) = (List.replicate n a, loop 0) := by
  induction n with
  | zero => rfl
  | succ n ih => rw [choices, h, ih, List.replicate_succ]

/-- Data that give the same next choice give the same choices, and the same choice after them. -/
theorem choices_congr {d d' : Scheduler} (h : choose c d = choose c d') (n : Nat) :
    (choices c n d).1 = (choices c n d').1 ∧ choose c (choices c n d).2 = choose c (choices c n d').2 := by
  cases n with
  | zero => exact ⟨rfl, h⟩
  | succ n => rw [choices, choices, h]; exact ⟨rfl, rfl⟩

end

/-! ## One iteration of the reference scheduler (60_exceptions.md R221) -/

/-- The scheduler's data inside an iteration, with no stop to come. -/
def inPhase (delta : Nat) (rest : List Turn) (p : Phase) (acc : Accumulators) : Scheduler :=
  { acc := acc, agenda := .iteration p delta :: rest, stopAfter := none }

section

variable {c : Config} {delta : Nat} {rest : List Turn} {p p' : Phase} {acc acc' : Accumulators}

/-- With no stop to come the choice depends on the next turn alone. -/
theorem choose_congr_turn {d d' : Scheduler} (hd : d.stopAfter = none) (hd' : d'.stopAfter = none)
    (h : takeTurn c d.agenda d.acc = takeTurn c d'.agenda d'.acc) : choose c d = choose c d' := by
  rw [choose_of_noStop c d hd, choose_of_noStop c d' hd', Scheduler.afterTurn, Scheduler.afterTurn, h]

/-- An iteration gives the step of its loop and stays in the loop. -/
theorem choose_inPhase_step {a : Action} (h : iterationStep c p delta acc = (acc', some (a, p'))) :
    choose c (inPhase delta rest p acc) = (a, inPhase delta rest p' acc') := by
  have hturn : takeTurn c (.iteration p delta :: rest) acc = (a, acc', .iteration p' delta :: rest) := by
    rw [takeTurn, h]
  simp only [choose, inPhase, Scheduler.afterTurn, hturn]

/-- A loop that has no step left gives way to the next loop in the same choice. -/
theorem choose_inPhase_congr (h : iterationStep c p delta acc = iterationStep c p' delta acc') :
    choose c (inPhase delta rest p acc) = choose c (inPhase delta rest p' acc') := by
  refine choose_congr_turn rfl rfl ?_
  rw [inPhase, inPhase, takeTurn, takeTurn, h]

/-- An iteration that has no step left gives way to the turn after it in the same choice. -/
theorem choose_inPhase_over (h : iterationStep c p delta acc = (acc', none)) :
    choose c (inPhase delta rest p acc) = choose c { acc := acc', agenda := rest, stopAfter := none } := by
  refine choose_congr_turn rfl rfl ?_
  rw [inPhase, takeTurn, h]

/-- A loop that takes `period` off one accumulator at each step gives as many steps as the accumulator covers, and leaves
its remainder. `accAt` is the accumulators by the value of that one. -/
theorem choices_of_loop {a : Action} {period : Nat} {accAt : Nat → Accumulators}
    (hstep : ∀ v, period ≤ v → iterationStep c p delta (accAt v) = (accAt (v - period), some (a, p))) (v : Nat) :
    choices c (v / period) (inPhase delta rest p (accAt v)) =
      (List.replicate (v / period) a, inPhase delta rest p (accAt (v % period))) := by
  have hloop (k : Nat) : choose c (inPhase delta rest p (accAt (v % period + (k + 1) * period))) =
      (a, inPhase delta rest p (accAt (v % period + k * period))) := by
    have hsub : v % period + (k + 1) * period - period = v % period + k * period := by
      rw [Nat.succ_mul, ← Nat.add_assoc, Nat.add_sub_cancel]
    rw [← hsub]
    exact choose_inPhase_step (hstep _ (by rw [Nat.succ_mul]; omega))
  have hall := choices_loop (loop := fun k => inPhase delta rest p (accAt (v % period + k * period))) hloop (v / period)
  simpa [Nat.mod_add_div'] using hall

/-- The same from any data that choose as the loop does. -/
theorem choices_through_loop {a : Action} {period : Nat} {accAt : Nat → Accumulators}
    (hstep : ∀ v, period ≤ v → iterationStep c p delta (accAt v) = (accAt (v - period), some (a, p))) {v : Nat}
    {d : Scheduler} (hd : choose c d = choose c (inPhase delta rest p (accAt v))) :
    (choices c (v / period) d).1 = List.replicate (v / period) a ∧
      choose c (choices c (v / period) d).2 = choose c (inPhase delta rest p (accAt (v % period))) := by
  have h := choices_congr hd (v / period)
  rwa [choices_of_loop hstep] at h

end

/-! ## The host's stop -/

/-- A stop still to come changes no choice and draws one step nearer. -/
theorem choose_some_succ (c : Config) (d : Scheduler) (k : Nat) :
    choose c { d with stopAfter := some (k + 1) } =
      ((choose c { d with stopAfter := none }).1,
        { (choose c { d with stopAfter := none }).2 with stopAfter := some k }) := rfl

theorem choices_stop (c : Config) (k : Nat) (d : Scheduler) :
    (choices c (k + 1) { d with stopAfter := some k }).1 = (choices c k { d with stopAfter := none }).1 ++ [.stop] := by
  induction k generalizing d with
  | zero => rfl
  | succ k ih =>
    rw [choices, choose_some_succ]
    exact congrArg ((choose c { d with stopAfter := none }).1 :: ·) (ih (choose c { d with stopAfter := none }).2)

/-! ## Finite schedules -/

/-- The state with a list of free turns on its agenda and no stop to come. -/
def State.withAgenda (s : State) (as : List Action) : State :=
  s.setSched { s.sched with agenda := as.map .act, stopAfter := none }

theorem step_withAgenda_cons {s u : State} {a : Action} {as : List Action} (hr : s.Running)
    (h : perform a s = .next u) : step (s.withAgenda (a :: as)) = .next (u.withAgenda as) := by
  have hrun : (s.withAgenda (a :: as)).Running := hr
  rw [step_of_running hrun]
  refine (perform_setSched { s.sched with agenda := as.map .act, stopAfter := none } h).trans ?_
  rw [State.withAgenda, perform_sched h]

theorem run_of_step {M : Host.Core} {s s' : M.State} (k : Nat) (h : M.step s = .next s') :
    M.run (k + 1) s = M.run k s' := by
  simp [Host.Core.run, h]

theorem run_withAgenda {as : List Action} {s t : State} (h : PerformedInOrder as s t) :
    core.run as.length (s.withAgenda as) = .next (t.withAgenda []) := by
  induction as generalizing s with
  | nil =>
    obtain rfl : s = t := h
    rfl
  | cons a as ih =>
    obtain ⟨hr, u, hu, hrest⟩ := h
    have hstep : core.step (s.withAgenda (a :: as)) = .next (u.withAgenda as) := step_withAgenda_cons hr hu
    exact (run_of_step as.length hstep).trans (ih hrest)

theorem sched_of_performedInOrder {as : List Action} {s t : State} (h : PerformedInOrder as s t) : t.sched = s.sched := by
  induction as generalizing s with
  | nil =>
    obtain rfl : s = t := h
    rfl
  | cons a as ih =>
    obtain ⟨-, u, hu, hrest⟩ := h
    rw [ih hrest, perform_sched hu]

/-! ## The timer's decay -/

theorem State.timerDecay_dt (s : State) : s.timerDecay.dt.toNat = s.dt.toNat - 1 := by
  rw [State.timerDecay_eq, State.setDt_dt]
  split
  next h => exact BitVec.toNat_sub_of_le h
  next h => omega

theorem decays_dt (k : Nat) (s : State) : (decays k s).dt.toNat = s.dt.toNat - k := by
  induction k generalizing s with
  | zero => rfl
  | succ k ih => rw [decays, ih, State.timerDecay_dt, Nat.sub_sub, Nat.add_comm]

theorem exec_opFX15 (s : State) {x : Nat} (hx : x < 16) : exec (.opFX15 x) s = .next (s.setDt (s.getV x)) :=
  guardRegs_one (.opFX15 x) s _ hx

/-- No step but a Tick raises the timer. -/
theorem dt_le_of_perform {a : Action} {s t : State} (h : perform a s = .next t) (htick : a = .tick → t.dt = s.dt) :
    t.dt.toNat ≤ s.dt.toNat := by
  obtain ⟨rfl, -⟩ | ⟨-, rfl⟩ | ⟨-, rfl⟩ | ⟨-, rfl⟩ := perform_next_cases h
  · rw [htick rfl]
  · rw [State.timerDecay_dt]
    exact Nat.sub_le _ _
  · exact le_rfl
  · exact le_rfl

end Sys2Proof.Machine

namespace Sys2Proof.Proofs

open Sys2Proof.Machine Sys2Proof.Claims

/-- Settles O52: each loop gives the steps its accumulator covers and leaves the remainder, which is below its period, so
the next choice is the next loop's, and after the third the next turn's. -/
theorem referenceIterationCatchesUp : Obligations.ReferenceIterationCatchesUp := by
  intro c acc delta rest hC hT hR ticks falls shows left run
  obtain ⟨hticks, hcpu⟩ := choices_through_loop (c := c) (delta := delta) (rest := rest) (p := .cpuLoop) (a := .tick)
    (period := c.periodCpu) (accAt := fun v => { acc with accC := v }) (fun v hv => if_pos hv)
    (v := acc.accC + delta) (d := inPhase delta rest .start acc) rfl
  have htimer := hcpu.trans (choose_inPhase_congr (p' := .timerLoop) (if_neg (Nat.not_le.mpr (Nat.mod_lt _ hC))))
  obtain ⟨hfalls, htimer⟩ := choices_through_loop (p := .timerLoop) (a := .timerDecay) (period := c.periodTimer)
    (accAt := fun v => { left with accT := v, accR := acc.accR }) (fun v hv => if_pos hv) htimer
  have hrefresh := htimer.trans
    (choose_inPhase_congr (p' := .refreshLoop) (if_neg (Nat.not_le.mpr (Nat.mod_lt _ hT))))
  obtain ⟨hshows, hrefresh⟩ := choices_through_loop (p := .refreshLoop) (a := .refresh) (period := c.periodRefresh)
    (accAt := fun v => { left with accR := v }) (fun v hv => if_pos hv) hrefresh
  have hover := hrefresh.trans (choose_inPhase_over (if_neg (Nat.not_le.mpr (Nat.mod_lt _ hR))))
  have hrun : run = choices c (ticks + falls + shows) (inPhase delta rest .start acc) := rfl
  rw [hrun, choices_add, choices_add, hticks, hfalls, hshows]
  exact ⟨rfl, hover⟩

/-- Settles O53: a stop still to come changes no choice, draws one step nearer at each, and is then the choice itself. -/
theorem stopLandsBeforeAnyStep : Obligations.StopLandsBeforeAnyStep :=
  fun c d k => choices_stop c k d

/-- Settles O50: with the sequence on the agenda each step takes its head, performs it unseen by the scheduler's data, and
leaves the rest. -/
theorem everyFiniteScheduleRuns : Obligations.EveryFiniteScheduleRuns := by
  intro as s t h
  refine (run_withAgenda h).trans ?_
  rw [State.withAgenda, sched_of_performedInOrder h]
  rfl

/-- Settles O54: the timer never rises, so a state where it is least is followed, by fairness, by a decay that cannot lower
it: it is 0 there. -/
theorem fairRunExpiresTimer : Obligations.FairRunExpiresTimer := by
  intro schedule states hrun hfair hticks
  have hfalls : Antitone fun n => (states n).dt.toNat :=
    antitone_nat_of_succ_le fun n => dt_le_of_perform (hrun n).2 (hticks n)
  obtain ⟨n, hleast⟩ : ∃ n, ∀ m, (states n).dt.toNat ≤ (states m).dt.toNat :=
    ⟨Function.argmin fun n => (states n).dt.toNat, fun m => Function.argmin_le (fun n => (states n).dt.toNat) m⟩
  obtain ⟨-, ⟨m, hnm, hdecay⟩, -⟩ := hfair n
  obtain ⟨-, hperform⟩ := hrun m
  rw [hdecay] at hperform
  have hnext : (states (m + 1)).dt.toNat = (states m).dt.toNat - 1 := by
    rw [← Host.Outcome.next.inj hperform, State.timerDecay_dt]
  have hle : (states m).dt.toNat ≤ (states n).dt.toNat := hfalls hnm
  have hmin := hleast (m + 1)
  exact ⟨n, BitVec.eq_of_toNat_eq (show (states n).dt.toNat = 0 by omega)⟩

/-- Settles O31: a decay is one write of the timer, by the timer's value less 1. -/
theorem timerDecayFloorsAtZero : Obligations.TimerDecayFloorsAtZero := by
  intro s
  refine ⟨s.timerDecay, rfl, s.timerDecay_dt, ?_⟩
  rw [State.timerDecay_eq]
  rfl

/-- Settles O32: both are one field's update. -/
theorem stopAndRefreshKeepTheState : Obligations.StopAndRefreshKeepTheState :=
  fun _ => ⟨rfl, rfl⟩

/-- Settles O30: FX15 is one write of the timer. -/
theorem setTimerChangesOnlyTimer : Obligations.SetTimerChangesOnlyTimer :=
  fun x s hx => ⟨encoded_of_wf ((regOk_iff x).mpr hx), exec_opFX15 s hx⟩

/-- Settles O33: the decays between the two instructions take 1 each from the timer that FX15 set, and FX07 writes what is
left. -/
theorem timerReadsAfterDecays : Obligations.TimerReadsAfterDecays := by
  intro x y k s hx hy
  refine ⟨_, _, exec_opFX15 s hx, exec_opFX07 _ hy, ?_, onlyRegs_setV _ y _⟩
  rw [State.getV_setV_same _ y _ hy, decays_dt, State.setDt_dt]

end Sys2Proof.Proofs
end

section
/-! Proofs about control transfer, random numbers and the glyph address (41_control_flow.md R120 to R123, 42_alu.md R155,
43_index_memory.md R172), each from the instruction's one effect. -/

namespace Sys2Proof.Machine

open Sys2Proof.Claims

section

variable (s : State)

/-! ## The call stack -/

theorem State.stackFull_eq_true_iff :
    s.stackFull = true ↔ ∃ cap, s.config.stackCap = some cap ∧ cap ≤ s.stack.length := by
  unfold State.stackFull
  split <;> simp [*]

theorem State.stackFull_eq_false_iff :
    s.stackFull = false ↔ ∀ cap, s.config.stackCap = some cap → s.stack.length < cap := by
  rw [← Bool.not_eq_true, State.stackFull_eq_true_iff]
  simp

/-- A call with room on the stack (41_control_flow.md R123). -/
theorem exec_op2NNN_of_room (nnn : Addr12) (h : s.stackFull = false) :
    exec (.op2NNN nnn) s = .next ((s.push s.pc).setPc (zext16 nnn)) :=
  exec_of_noFault (i := .op2NNN nnn) (List.forall_mem_nil _) (bodyFault_op2NNN_eq_none_iff.mpr h)

theorem exec_op2NNN_of_full (nnn : Addr12) (h : s.stackFull = true) :
    exec (.op2NNN nnn) s = raise .stackOverflow (.op2NNN nnn) none s :=
  exec_of_fault (List.forall_mem_nil _) (if_pos h)

/-- A return with an entry on the stack (41_control_flow.md R120). -/
theorem exec_op00EE_of_cons {w : Word} {rest : List Word} (h : s.stack = w :: rest) :
    exec .op00EE s = .next ((s.setStack rest).setPc w) := by
  have hnone : bodyFault s .op00EE = none := bodyFault_op00EE_eq_none_iff.mpr (by simp [h])
  rw [exec_of_noFault (List.forall_mem_nil _) hnone, effect, h]
  rfl

theorem exec_op00EE_of_nil (h : s.stack = []) : exec .op00EE s = raise .stackUnderflow .op00EE none s :=
  exec_of_fault (List.forall_mem_nil _) (if_pos h)

/-! ## Jumps, random numbers and glyphs -/

theorem exec_op1NNN (nnn : Addr12) : exec (.op1NNN nnn) s = .next (effect s (.op1NNN nnn)) :=
  exec_of_noFault (List.forall_mem_nil _) rfl

/-- A jump halts exactly at its own address with HALT_ON_SELF_JUMP on (41_control_flow.md R122). -/
theorem halted_effect_op1NNN (nnn : Addr12) : (effect s (.op1NNN nnn)).halted = true ↔
    s.halted = true ∨ (s.config.haltOnSelfJump = true ∧ (s.pc - 2#16).toNat = nnn.toNat) := by
  have hself : zext16 nnn = s.fetchedAt ↔ (s.pc - 2#16).toNat = nnn.toNat := by
    rw [BitVec.toNat_eq, toNat_zext16]
    exact eq_comm
  simp [effect, hself]

theorem exec_opCXNN {x : Nat} (nn : Byte) (hx : x < 16) :
    exec (.opCXNN x nn) s = .next ((s.setRng s.rng.advance).setV x (s.rng.next &&& nn)) :=
  guardRegs_one (.opCXNN x nn) s _ hx

theorem Rng.draw_injected {r : Rng} {b : Byte} {rest : List Byte} (h : r.injected = b :: rest) :
    r.next = b ∧ r.advance.injected = rest := by
  simp [Rng.next, Rng.advance, h]

theorem Rng.draw_free {r : Rng} (h : r.injected = []) :
    r.next = Config.randomByte r.seed r.drawn ∧ r.advance.injected = [] := by
  simp [Rng.next, Rng.advance, h]

theorem exec_opFX29 {x : Nat} (hx : x < 16) : exec (.opFX29 x) s = .next (s.setIdx (glyphAddress (s.getV x))) :=
  guardRegs_one (.opFX29 x) s _ hx

end

end Sys2Proof.Machine

namespace Sys2Proof.Proofs

open Sys2Proof.Machine

/-- Settles O15: one draw, then one register write of the drawn byte under the mask. -/
theorem randomDrawsOneByteAndMasks : Obligations.RandomDrawsOneByteAndMasks := by
  intro x nn s hx
  have hvalue : ((s.setRng s.rng.advance).setV x (s.rng.next &&& nn)).getV x = s.rng.next &&& nn :=
    State.getV_setV_same _ x _ hx
  refine ⟨encoded_of_wf ((regOk_iff x).mpr hx), _, exec_opCXNN s nn hx, onlyRegs_setV (s.setRng s.rng.advance) x _, rfl,
    rfl, ?_, fun b rest h => ?_, fun h => ?_⟩ <;> rw [hvalue]
  · rw [BitVec.and_assoc, BitVec.and_not_self]
    exact BitVec.and_zero
  · obtain ⟨hnext, hrest⟩ := Rng.draw_injected h
    exact ⟨by rw [hnext], hrest⟩
  · obtain ⟨hnext, hrest⟩ := Rng.draw_free h
    exact ⟨by rw [hnext], hrest⟩

/-- Settles O16: the jump writes pc and halted only. -/
theorem jumpSetsPcAndHaltsOnItself : Obligations.JumpSetsPcAndHaltsOnItself :=
  fun nnn s => ⟨encoded_of_wf rfl, _, exec_op1NNN s nnn, toNat_zext16 nnn, halted_effect_op1NNN s nnn, rfl⟩

/-- Settles O17: the stack is full exactly with STACK_CAP entries on it, and the call faults exactly then. -/
theorem callPushesReturnAddress : Obligations.CallPushesReturnAddress := by
  refine fun nnn s => ⟨encoded_of_wf rfl, fun hroom => ?_, fun hfull => ?_⟩
  · exact exec_op2NNN_of_room s nnn (s.stackFull_eq_false_iff.mpr hroom)
  · exact exec_op2NNN_of_full s nnn (s.stackFull_eq_true_iff.mpr hfull)

/-- Settles O18: the return pops the head of the stack, and faults exactly when there is none. -/
theorem returnPopsIntoPc : Obligations.ReturnPopsIntoPc :=
  ⟨encoded_of_wf rfl, fun s _ _ h => exec_op00EE_of_cons s h, fun s h => exec_op00EE_of_nil s h⟩

/-- Settles O19: the return pops what the call pushed. -/
theorem returnUndoesCall : Obligations.ReturnUndoesCall := by
  intro nnn s hroom
  refine ⟨_, exec_op2NNN_of_room s nnn (s.stackFull_eq_false_iff.mpr hroom), fun u hu => ?_⟩
  exact exec_op00EE_of_cons u hu

/-- Settles O23: FX29 is one index write of the glyph's address. -/
theorem glyphAddressSetsIndex : Obligations.GlyphAddressSetsIndex :=
  fun x s hx => ⟨encoded_of_wf ((regOk_iff x).mpr hx), _, exec_opFX29 s hx, rfl, toNat_glyphAddress, glyphAddress_of_gt⟩

/-- Settles O34: 00E0 replaces the grid by the cleared one and logs it. -/
theorem clearTurnsEveryPixelOff : Obligations.ClearTurnsEveryPixelOff :=
  ⟨encoded_of_wf rfl, fun _ => ⟨_, rfl, Framebuffer.pixel_clear, rfl, rfl⟩⟩

end Sys2Proof.Proofs
end

section
/-! Proofs about the instructions that store and load (43_index_memory.md R173 to R175, 20_memory.md R68): the allowed
ranges, the bytes and registers left, and what a later fetch reads. -/

namespace Sys2Proof.Machine

open Sys2Proof.Claims

/-! ## Ranges and stored bytes -/

/-- The load of `x + 1` bytes as one inequality. -/
theorem inBounds_succ_iff (a x : Nat) : inBounds a (x + 1) = true ↔ a + x ≤ 0xFFF := by
  rw [inBounds_iff]
  omega

/-- The store of `x + 1` bytes is allowed inside memory and, with FONT_PROTECT on, clear of the font. -/
theorem mayWrite_succ_iff (c : Config) (a x : Nat) : mayWrite c a (x + 1) = true ↔
    a + x ≤ 0xFFF ∧ (c.fontProtect = true → a + x < 0x050 ∨ 0x09F < a) := by
  have hfont : meetsFont a (x + 1) = false ↔ a + x < 0x050 ∨ 0x09F < a := by
    rw [← Bool.not_eq_true, meetsFont_iff]
    omega
  cases hp : c.fontProtect <;> simp [mayWrite, hp, inBounds_succ_iff, hfont]

theorem mayWrite_succ_eq_false_iff (c : Config) (a x : Nat) : mayWrite c a (x + 1) = false ↔
    0xFFF < a + x ∨ (c.fontProtect = true ∧ 0x050 ≤ a + x ∧ a ≤ 0x09F) := by
  rw [← Bool.not_eq_true, mayWrite_succ_iff]
  cases c.fontProtect
  · simp
  · simp
    omega

theorem storedByte_congr {m : Memory} {a n : Nat} {row row' : Nat → Byte} (h : ∀ k, k < n → row k = row' k) (b : Nat) :
    storedByte m a n row b = storedByte m a n row' b := by
  unfold storedByte
  split
  next hin => rw [h (b - a) (by omega)]
  next => rfl

/-- Memory after a store, byte by byte. -/
theorem Memory.get_putAll_eq_storedByte {m : Memory} {a : Nat} {bs : List Byte} (hm : m.wf = true)
    (ha : a + bs.length ≤ 4096) (b : Nat) :
    (m.putAll a bs).get b = storedByte m a bs.length (fun k => bs.getD k 0#8) b := by
  unfold storedByte
  split
  next hin =>
    have hget := Memory.get_putAll hm ha (k := b - a) (by omega)
    rwa [Nat.add_sub_cancel' hin.1] at hget
  next hout => exact Memory.get_putAll_ne m bs (by omega)

/-- The digits as the statements index them. -/
theorem getD_decimalDigits (v : Byte) {k : Nat} (hk : k < 3) : (decimalDigits v).getD k 0#8 =
    BitVec.ofNat 8 (if k = 0 then v.toNat / 100 else if k = 1 then v.toNat / 10 % 10 else v.toNat % 10) := by
  obtain rfl | rfl | rfl : k = 0 ∨ k = 1 ∨ k = 2 := by omega
  all_goals rfl

/-! ## The instructions on registers 0..15 -/

section

variable {s : State} {x : Nat} (hx : x < 16)

include hx

theorem exec_opFX33_of_mayWrite (h : mayWrite s.config s.idx.toNat 3 = true) :
    exec (.opFX33 x) s = .next (s.setMem (s.mem.putAll s.idx.toNat (decimalDigits (s.getV x)))) :=
  exec_of_noFault (i := .opFX33 x) (by simpa [regsUsed] using hx) (bodyFault_opFX33_eq_none_iff.mpr h)

theorem exec_opFX33_of_not (h : mayWrite s.config s.idx.toNat 3 = false) :
    exec (.opFX33 x) s = raise .outOfBounds (.opFX33 x) (some (s.idx.toNat, 3)) s :=
  exec_of_fault (by simpa [regsUsed] using hx) (if_neg (by simp [h]))

theorem exec_opFX55_of_mayWrite (h : mayWrite s.config s.idx.toNat (x + 1) = true) : exec (.opFX55 x) s =
    .next ((s.setMem (s.mem.putAll s.idx.toNat (s.block 0 (x + 1)))).setIdx (s.steppedIndex (x + 1))) :=
  exec_of_noFault (i := .opFX55 x) (by simpa [regsUsed] using hx) (bodyFault_opFX55_eq_none_iff.mpr h)

theorem exec_opFX55_of_not (h : mayWrite s.config s.idx.toNat (x + 1) = false) :
    exec (.opFX55 x) s = raise .outOfBounds (.opFX55 x) (some (s.idx.toNat, x + 1)) s :=
  exec_of_fault (by simpa [regsUsed] using hx) (if_neg (by simp [h]))

theorem exec_opFX65_of_inBounds (h : inBounds s.idx.toNat (x + 1) = true) :
    exec (.opFX65 x) s = .next (effect s (.opFX65 x)) :=
  exec_of_noFault (by simpa [regsUsed] using hx) (bodyFault_opFX65_eq_none_iff.mpr h)

theorem exec_opFX65_of_not (h : inBounds s.idx.toNat (x + 1) = false) :
    exec (.opFX65 x) s = raise .outOfBounds (.opFX65 x) (some (s.idx.toNat, x + 1)) s :=
  exec_of_fault (by simpa [regsUsed] using hx) (if_neg (by simp [h]))

/-- FX65 loads the registers up to X from their addresses. -/
theorem getV_effect_opFX65 {r : Nat} (hr : r ≤ x) : (effect s (.opFX65 x)).getV r = s.mem.get (s.idx.toNat + r) := by
  have hload := s.getV_loadBlock 0 r (s.mem.range s.idx.toNat (x + 1)) (by simp; omega) (by simp; omega)
  rw [Nat.zero_add, Memory.getD_range _ _ _ _ (by omega)] at hload
  exact hload

end

section

variable (s : State) {x : Nat}

/-- FX65 leaves the registers above X. -/
theorem getV_effect_opFX65_above {r : Nat} (hr : x < r) : (effect s (.opFX65 x)).getV r = s.getV r :=
  s.getV_loadBlock_ne 0 r _ (.inr (by simp; omega))

/-- The index register after FX55 or FX65 of X + 1 bytes. -/
theorem State.steppedIndex_succ (x : Nat) :
    (s.config.storeLoadIncrementsIndex = true → (s.steppedIndex (x + 1)).toNat = (s.idx.toNat + x + 1) % 0x1000) ∧
      (s.config.storeLoadIncrementsIndex = false → s.steppedIndex (x + 1) = s.idx) := by
  refine ⟨fun hon => ?_, fun hoff => State.steppedIndex_off (x + 1) hoff⟩
  rw [State.steppedIndex_on (x + 1) hon, wrapIndex_toNat, Nat.add_assoc]

/-- FX55 stores each register up to X at its address. -/
theorem Memory.get_putAll_block {m : Memory} {a r : Nat} (hm : m.wf = true) (ha : a + x ≤ 0xFFF) (hr : r ≤ x) :
    (m.putAll a (s.block 0 (x + 1))).get (a + r) = s.getV r := by
  rw [Memory.get_putAll hm (by simp; omega) (by simp; omega), State.getD_block _ _ _ _ (by omega), Nat.zero_add]

/-- FX33 stores each digit at its address. -/
theorem Memory.toNat_get_putAll_digits {m : Memory} {a : Nat} (v : Byte) (hm : m.wf = true) (ha : a + 2 ≤ 0xFFF) :
    ((m.putAll a (decimalDigits v)).get a).toNat = v.toNat / 100 ∧
    ((m.putAll a (decimalDigits v)).get (a + 1)).toNat = v.toNat / 10 % 10 ∧
    ((m.putAll a (decimalDigits v)).get (a + 2)).toNat = v.toNat % 10 := by
  have hdigit {k : Nat} (hk : k < 3) : (m.putAll a (decimalDigits v)).get (a + k) = _ :=
    (Memory.get_putAll hm (by simp; omega) hk).trans (getD_decimalDigits v hk)
  have hfits {n : Nat} (hn : n ≤ v.toNat) : (BitVec.ofNat 8 n).toNat = n :=
    (BitVec.toNat_ofNat n 8).trans (Nat.mod_eq_of_lt (hn.trans_lt v.isLt))
  exact ⟨(congrArg BitVec.toNat (hdigit (k := 0) (by decide))).trans (hfits (Nat.div_le_self _ _)),
    (congrArg BitVec.toNat (hdigit (k := 1) (by decide))).trans (hfits ((Nat.mod_le _ _).trans (Nat.div_le_self _ _))),
    (congrArg BitVec.toNat (hdigit (k := 2) (by decide))).trans (hfits (Nat.mod_le _ _))⟩

/-- A store changes only the bytes of its range. -/
theorem onlyBytesAndIndex_putAll {n : Nat} {bs : List Byte} (hn : bs.length = n) (w : Word) :
    OnlyBytesAndIndex s.idx.toNat n s ((s.setMem (s.mem.putAll s.idx.toNat bs)).setIdx w) :=
  ⟨rfl, fun _ hb => Memory.get_putAll_ne s.mem bs (by rwa [hn])⟩

/-- The fetch at `p` joins the two bytes there (20_memory.md R60). -/
theorem fetch_at {p : Nat} (hp : p + 1 ≤ 0xFFF) :
    fetch { s with pc := BitVec.ofNat 16 p } = some (s.mem.get p ++ s.mem.get (p + 1)) := by
  have hpc : (BitVec.ofNat 16 p).toNat = p := by
    rw [BitVec.toNat_ofNat]
    omega
  have hfetch := fetch_of_inMemory (s := { s with pc := BitVec.ofNat 16 p }) (by rwa [hpc])
  rw [hfetch, hpc]
  rfl

end

end Sys2Proof.Machine

namespace Sys2Proof.Proofs

open Sys2Proof.Machine Sys2Proof.Claims

/-- Settles O24: FX33 is one allowed store of three digits at I, or the fault of its range. -/
theorem decimalDigitsAreStored : Obligations.DecimalDigitsAreStored := by
  intro x s hx hm a v
  refine ⟨encoded_of_wf ((regOk_iff x).mpr hx), fun hin hfont => ?_, fun hout => ?_⟩
  · refine ⟨_, exec_opFX33_of_mayWrite hx ((mayWrite_succ_iff _ _ 2).mpr ⟨hin, hfont⟩), ?_, rfl, ?_⟩
    · exact onlyBytesAndIndex_putAll s (length_decimalDigits _) s.idx
    · exact Memory.toNat_get_putAll_digits (s.getV x) hm hin
  · exact exec_opFX33_of_not hx ((mayWrite_succ_eq_false_iff _ _ 2).mpr hout)

/-- Settles O25: FX55 is one allowed store of the register block at I, then the quirk's index write, or the fault of its
range. -/
theorem registerDumpStoresBlock : Obligations.RegisterDumpStoresBlock := by
  intro x s hx hm a
  refine ⟨encoded_of_wf ((regOk_iff x).mpr hx), fun hin hfont => ?_, fun hout => ?_⟩
  · refine ⟨_, exec_opFX55_of_mayWrite hx ((mayWrite_succ_iff _ _ x).mpr ⟨hin, hfont⟩), ?_, fun r hr => ?_,
      s.steppedIndex_succ x⟩
    · exact onlyBytesAndIndex_putAll s (s.length_block 0 (x + 1)) _
    · exact Memory.get_putAll_block s hm hin hr
  · exact exec_opFX55_of_not hx ((mayWrite_succ_eq_false_iff _ _ x).mpr hout)

/-- Settles O26: FX65 loads the block at I, then makes the quirk's index write, or enters the fault of its range. -/
theorem registerLoadReadsBlock : Obligations.RegisterLoadReadsBlock := by
  intro x s hx a
  refine ⟨encoded_of_wf ((regOk_iff x).mpr hx), fun hin => ?_, fun hout => ?_⟩
  · refine ⟨_, exec_opFX65_of_inBounds hx ((inBounds_succ_iff a x).mpr hin), ⟨rfl, fun r _ hr => ?_, fun _ => rfl⟩,
      fun r hr => getV_effect_opFX65 hx hr, s.steppedIndex_succ x⟩
    exact getV_effect_opFX65_above s (by simpa using hr)
  · refine exec_opFX65_of_not hx ?_
    rw [← Bool.not_eq_true, inBounds_succ_iff]
    exact Nat.not_le.mpr hout

/-- Settles O27: the load reads at I + r what the dump stored there. -/
theorem dumpThenLoadRestoresRegisters : Obligations.DumpThenLoadRestoresRegisters := by
  intro x s hx hm hin hp
  have hw : mayWrite s.config s.idx.toNat (x + 1) = true :=
    (mayWrite_succ_iff _ _ x).mpr ⟨hin, fun hon => absurd (hp.symm.trans hon) (by decide)⟩
  refine ⟨_, exec_opFX55_of_mayWrite hx hw, fun u hmem hidx => ?_⟩
  have hb : inBounds u.idx.toNat (x + 1) = true := by rwa [hidx, inBounds_succ_iff]
  refine ⟨_, exec_opFX65_of_inBounds hx hb, fun r hr => ?_, fun r hr => getV_effect_opFX65_above u hr, hmem⟩
  rw [getV_effect_opFX65 hx hr, hmem, hidx]
  exact Memory.get_putAll_block s hm hin hr

/-- Settles O28: a store leaves memory byte by byte as `storedByte` says, and a fetch joins two bytes of it. -/
theorem storedWordIsFetched : Obligations.StoredWordIsFetched := by
  intro x p s hx hm hp a v digit
  refine ⟨fun hin hfont => ?_, fun hin hfont => ?_⟩
  · have hbyte (b : Nat) : (s.mem.putAll a (decimalDigits (s.getV x))).get b = storedByte s.mem a 3 digit b :=
      (Memory.get_putAll_eq_storedByte hm (by simp; omega) b).trans
        (storedByte_congr (fun k hk => getD_decimalDigits (s.getV x) hk) b)
    refine ⟨_, exec_opFX33_of_mayWrite hx ((mayWrite_succ_iff _ _ 2).mpr ⟨hin, hfont⟩), ?_⟩
    rw [fetch_at _ hp, ← hbyte, ← hbyte]
    rfl
  · have hbyte (b : Nat) : (s.mem.putAll a (s.block 0 (x + 1))).get b = storedByte s.mem a (x + 1) s.getV b := by
      rw [Memory.get_putAll_eq_storedByte hm (by simp; omega) b, State.length_block]
      refine storedByte_congr (fun k hk => ?_) b
      rw [State.getD_block _ _ _ _ hk, Nat.zero_add]
    refine ⟨_, exec_opFX55_of_mayWrite hx ((mayWrite_succ_iff _ _ x).mpr ⟨hin, hfont⟩), ?_⟩
    rw [fetch_at _ hp, ← hbyte, ← hbyte]
    rfl

end Sys2Proof.Proofs
end

section
/-! Proofs about collisions and draws (40_display.md R102, R105, R106): a draw collides exactly if a set bit meets a pixel that
was on, and DXYN draws the rows at I. -/

namespace Sys2Proof.Machine

open Sys2Proof.Claims

/-! ## Set bits on pixels that are on -/

/-- Some pixel of the grid is on under a set bit. -/
def HitsOn (f : Framebuffer) (bit : Nat → Nat → Bool) : Prop :=
  ∃ p q, p < 64 ∧ q < 32 ∧ bit p q = true ∧ f.pixel p q = true

/-- Bits that never land on one pixel hit where either does. -/
theorem hitsOn_xor_iff {f : Framebuffer} {bit bit' : Nat → Nat → Bool} (h : ∀ p q, bit p q = true → bit' p q = false) :
    HitsOn f (fun p q => bit p q ^^ bit' p q) ↔ HitsOn f bit ∨ HitsOn f bit' := by
  have hor (p q : Nat) : (bit p q ^^ bit' p q) = true ↔ bit p q = true ∨ bit' p q = true := by
    have := h p q
    cases hb : bit p q <;> simp_all
  simp only [HitsOn, hor, or_and_right, and_or_left, exists_or]

/-- Grids that show alike under the set bits are hit alike. -/
theorem hitsOn_congr {f g : Framebuffer} {bit : Nat → Nat → Bool}
    (h : ∀ p q, p < 64 → q < 32 → bit p q = true → f.pixel p q = g.pixel p q) : HitsOn f bit ↔ HitsOn g bit := by
  refine exists_congr fun p => exists_congr fun q => and_congr_right fun hp => and_congr_right fun hq =>
    and_congr_right fun hb => ?_
  rw [h p q hp hq hb]

/-- The first row of a sprite and the rows below it land on different pixels. -/
theorem bodyBit_singleton_disjoint (row : Byte) (rows : List Byte) (x0 y0 p q : Nat)
    (h : bodyBit x0 y0 [row] p q = true) : bodyBit x0 (y0 + 1) rows p q = false := by
  rw [bodyBit_singleton, Bool.and_eq_true, decide_eq_true_eq] at h
  obtain ⟨⟨rfl, -, -⟩, -⟩ := h
  simp [bodyBit]

/-! ## Collisions of the compositor (40_display.md R102) -/

/-- One bit collides if it is set, inside the grid, and its pixel is on. -/
theorem Canvas.collided_bit (c : Canvas) (row : Byte) (x0 py b : Nat) : (c.bit row x0 py b).collided = true ↔
    c.collided = true ∨ (row.getLsbD (7 - b) = true ∧ (x0 + b < 64 ∧ py < 32) ∧ c.fb.pixel (x0 + b) py = true) := by
  unfold Canvas.bit
  split
  next hset => simp [Canvas.collided_hit, hset]
  next hclear => simp [hclear]

/-- Bits at different column offsets meet the pixels as they were before the row. -/
theorem Canvas.collided_foldl_bit (row : Byte) (x0 py : Nat) (bs : List Nat) (hbs : bs.Nodup) (c : Canvas) :
    (bs.foldl (fun c b => c.bit row x0 py b) c).collided = true ↔ c.collided = true ∨
      ∃ b ∈ bs, row.getLsbD (7 - b) = true ∧ (x0 + b < 64 ∧ py < 32) ∧ c.fb.pixel (x0 + b) py = true := by
  induction bs generalizing c with
  | nil => simp
  | cons b bs ih =>
    obtain ⟨hnot, hrest⟩ := List.nodup_cons.1 hbs
    have hkept (b' : Nat) (hb' : b' ∈ bs) (hin : x0 + b' < 64 ∧ py < 32) :
        (c.bit row x0 py b).fb.pixel (x0 + b') py = c.fb.pixel (x0 + b') py := by
      have hne : b ≠ b' := fun h => hnot (h ▸ hb')
      rw [Canvas.pixel_bit c row x0 py b _ _ hin.1 hin.2]
      simp [hne]
    rw [List.foldl_cons, ih hrest, Canvas.collided_bit, List.exists_mem_cons_iff, or_assoc]
    refine or_congr_right (or_congr_right (exists_congr fun b' => and_congr_right fun hb' =>
      and_congr_right fun _ => and_congr_right fun hin => ?_))
    rw [hkept b' hb' hin]

/-- One row collides if a set bit of it lands on a pixel that is on. -/
theorem Canvas.collided_row (c : Canvas) (row : Byte) (x0 py : Nat) :
    (c.row row x0 py).collided = true ↔ c.collided = true ∨ HitsOn c.fb (bodyBit x0 py [row]) := by
  rw [Canvas.row_eq_foldl_range, Canvas.collided_foldl_bit row x0 py _ List.nodup_range]
  refine or_congr_right ⟨?_, ?_⟩
  · rintro ⟨b, hb, hset, ⟨hx, hy⟩, hon⟩
    refine ⟨x0 + b, py, hx, hy, ?_, hon⟩
    rw [List.mem_range] at hb
    simpa [bodyBit_singleton, hb] using hset
  · rintro ⟨p, q, hp, hq, hbit, hon⟩
    rw [bodyBit_singleton, Bool.and_eq_true, decide_eq_true_eq] at hbit
    obtain ⟨⟨rfl, hle, hlt⟩, hset⟩ := hbit
    obtain ⟨b, rfl⟩ := Nat.exists_eq_add_of_le hle
    rw [Nat.add_sub_cancel_left] at hset
    exact ⟨b, List.mem_range.mpr (by omega), hset, ⟨hp, hq⟩, hon⟩

/-- The rows collide if a set bit of one lands on a pixel that was on before any of them. -/
theorem Canvas.collided_rows (x0 : Nat) (rows : List Byte) (c : Canvas) (y0 : Nat) :
    (c.rows x0 y0 rows).collided = true ↔ c.collided = true ∨ HitsOn c.fb (bodyBit x0 y0 rows) := by
  induction rows generalizing c y0 with
  | nil => simp [Canvas.rows, HitsOn]
  | cons row rows ih =>
    have hkept : HitsOn (c.row row x0 y0).fb (bodyBit x0 (y0 + 1) rows) ↔ HitsOn c.fb (bodyBit x0 (y0 + 1) rows) := by
      refine hitsOn_congr fun p q hp hq hbit => ?_
      have hfirst : bodyBit x0 y0 [row] p q = false := by
        by_contra h
        rw [Bool.not_eq_false] at h
        exact absurd (hbit.symm.trans (bodyBit_singleton_disjoint row rows x0 y0 p q h)) (by decide)
      rw [Canvas.pixel_row c row x0 y0 p q hp hq, hfirst, Bool.xor_false]
    have hall : HitsOn c.fb (bodyBit x0 y0 (row :: rows)) ↔
        HitsOn c.fb (bodyBit x0 y0 [row]) ∨ HitsOn c.fb (bodyBit x0 (y0 + 1) rows) := by
      rw [← hitsOn_xor_iff (bodyBit_singleton_disjoint row rows x0 y0)]
      simp only [HitsOn, bodyBit_cons row rows]
    rw [Canvas.rows, ih, Canvas.collided_row, hkept, hall, or_assoc]

theorem drawSprite_collided_iff (f : Framebuffer) (x y : Byte) (rows : List Byte) :
    (drawSprite f x y rows).collided = true ↔
      HitsOn f (spriteBit x y rows.length fun k => rows.getD k 0#8) := by
  rw [drawSprite, Canvas.collided_rows]
  simp only [Bool.false_eq_true, false_or]
  rfl

/-! ## DXYN (40_display.md R105) -/

/-- The bits of a sprite depend on its `n` rows only. -/
theorem spriteBit_congr {n : Nat} {row row' : Nat → Byte} (h : ∀ k, k < n → row k = row' k) (x y : Byte) (p q : Nat) :
    spriteBit x y n row p q = spriteBit x y n row' p q := by
  unfold spriteBit
  by_cases hq : y.toNat % 32 ≤ q ∧ q < y.toNat % 32 + n
  · rw [h (q - y.toNat % 32) (by omega)]
  · obtain hq | hq := not_and_or.mp hq <;> simp [hq]

theorem flagByte_eq_one_iff (b : Bool) : flagByte b = 1#8 ↔ b = true := by cases b <;> decide

theorem flagByte_eq_one_or_zero (b : Bool) : flagByte b = 1#8 ∨ flagByte b = 0#8 := by cases b <;> decide

/-- The bit of the N rows at I that lands on a pixel. -/
def State.spriteAt (s : State) (x y n : Nat) : Nat → Nat → Bool :=
  spriteBit (s.getV x) (s.getV y) n fun k => s.mem.get (s.idx.toNat + k)

/-- The state DXYN leaves: the rows at I drawn. -/
def State.drawAt (s : State) (x y n : Nat) : State := s.drawRows x y (s.mem.range s.idx.toNat n)

section

variable (s : State) (x y n : Nat)

theorem State.spriteBit_range :
    spriteBit (s.getV x) (s.getV y) (s.mem.range s.idx.toNat n).length
      (fun k => (s.mem.range s.idx.toNat n).getD k 0#8) = s.spriteAt x y n := by
  funext p q
  rw [Memory.length_range]
  exact spriteBit_congr (fun k hk => Memory.getD_range _ _ _ _ hk) _ _ p q

theorem State.pixel_drawAt {p q : Nat} (hp : p < 64) (hq : q < 32) :
    (s.drawAt x y n).fb.pixel p q = (s.fb.pixel p q ^^ s.spriteAt x y n p q) := by
  rw [← State.spriteBit_range]
  exact Proofs.spriteBitsToggleTheirPixels s.fb (s.getV x) (s.getV y) _ p q hp hq

/-- VF after a draw is the collision. -/
theorem State.getV_VF_drawAt : (s.drawAt x y n).getV VF =
    flagByte (drawSprite s.fb (s.getV x) (s.getV y) (s.mem.range s.idx.toNat n)).collided :=
  State.getV_setV_same _ VF _ (by decide)

theorem State.getV_VF_drawAt_eq_one_iff : (s.drawAt x y n).getV VF = 1#8 ↔ HitsOn s.fb (s.spriteAt x y n) := by
  rw [State.getV_VF_drawAt, flagByte_eq_one_iff, drawSprite_collided_iff, State.spriteBit_range]

/-- A draw changes the grid, the log and VF only. -/
theorem State.onlyRegs_drawAt : OnlyRegs [15] { s with fb := (s.drawAt x y n).fb, renders := (s.drawAt x y n).fb ::
    s.renders } (s.drawAt x y n) :=
  onlyRegs_setV _ VF _

/-- Drawing twice with the same registers inverts each pixel twice (40_display.md R106). -/
theorem State.drawAt_twice_fb (hx : (s.drawAt x y n).getV x = s.getV x) (hy : (s.drawAt x y n).getV y = s.getV y) :
    ((s.drawAt x y n).drawAt x y n).fb = s.fb ∧ (s.drawAt x y n).spriteAt x y n = s.spriteAt x y n := by
  have hsame : (s.drawAt x y n).spriteAt x y n = s.spriteAt x y n := by
    unfold State.spriteAt
    rw [hx, hy]
    rfl
  refine ⟨Framebuffer.ext_pixel fun p q hp hq => ?_, hsame⟩
  rw [State.pixel_drawAt _ x y n hp hq, hsame, State.pixel_drawAt s x y n hp hq, Bool.xor_assoc, Bool.xor_self,
    Bool.xor_false]

variable {s x y n} (hx : x < 16) (hy : y < 16)

include hx hy

theorem exec_opDXYN_of_inBounds (h : inBounds s.idx.toNat n = true) :
    exec (.opDXYN x y n) s = .next (s.drawAt x y n) :=
  exec_of_noFault (i := .opDXYN x y n) (by simp [regsUsed, hx, hy]) (bodyFault_opDXYN_eq_none_iff.mpr h)

theorem exec_opDXYN_of_not (h : inBounds s.idx.toNat n = false) :
    exec (.opDXYN x y n) s = raise .outOfBounds (.opDXYN x y n) (some (s.idx.toNat, n)) s :=
  exec_of_fault (by simp [regsUsed, hx, hy]) (if_neg (by simp [h]))

end

end Sys2Proof.Machine

namespace Sys2Proof.Proofs

open Sys2Proof.Machine

/-- Settles O36: the bits of a sprite land on different pixels, so each meets its pixel as it was before the draw. -/
theorem collisionIsAnOnPixelHit : Obligations.CollisionIsAnOnPixelHit :=
  fun f x y rows => drawSprite_collided_iff f x y rows

/-- Settles O37: inside memory DXYN draws the rows at I and flags the collision; outside it enters the fault of its range. -/
theorem drawTogglesFromMemoryAndFlags : Obligations.DrawTogglesFromMemoryAndFlags := by
  intro x y n s hx hy hn a hit
  have hwf : (Instr.opDXYN x y n).wf = true := by simp [Instr.wf, hx, hy, hn]
  refine ⟨encoded_of_wf hwf, fun ha hne hend => ?_, fun hout => ?_⟩
  · refine ⟨_, exec_opDXYN_of_inBounds hx hy ((inBounds_iff a n).mpr ⟨ha, hne, hend⟩),
      fun p q hp hq => s.pixel_drawAt x y n hp hq, s.getV_VF_drawAt_eq_one_iff x y n, ?_, s.onlyRegs_drawAt x y n⟩
    exact (s.getV_VF_drawAt x y n) ▸ flagByte_eq_one_or_zero _
  · refine exec_opDXYN_of_not hx hy ?_
    rw [← Bool.not_eq_true, inBounds_iff]
    omega

/-- Settles O38: the second draw reads the same rows from the same start, so it inverts the same pixels. -/
theorem drawTwiceRestoresGrid : Obligations.DrawTwiceRestoresGrid := by
  intro x y n s hx hy _ hin
  refine ⟨_, exec_opDXYN_of_inBounds hx hy hin, fun hvx hvy => ?_⟩
  obtain ⟨hgrid, hsprite⟩ := s.drawAt_twice_fb x y n hvx hvy
  refine ⟨_, exec_opDXYN_of_inBounds (s := s.drawAt x y n) hx hy hin, hgrid, ?_⟩
  refine ((s.drawAt x y n).getV_VF_drawAt_eq_one_iff x y n).trans ?_
  rw [hsprite]
  simp only [HitsOn, State.spriteAt, and_comm]

end Sys2Proof.Proofs
end
